-- ==== Sys2Proof/Word.lean ====
section
/-!
DEFINITION. The word types of YCV32 (00_scope.md R9: every value is unsigned, bit 0 is the least significant bit).
-/

namespace Sys2Proof

/-- An input byte or an emitted byte. -/
abbrev Byte := BitVec 8

/-- A 32-bit operand, register view, CRC value or part number (`NUM_W` = 32, R7). -/
abbrev Word := BitVec 32

/-- A 64-bit count of bytes (`LEN_W` = 64, R7). -/
abbrev DWord := BitVec 64

/-- A command word `{op[39:32], arg[31:0]}` (`CMD_W` = 40, R7, R80). -/
abbrev CmdWord := BitVec 40

/-- A response word `{code[39:32], val[31:0]}` (`RSP_W` = 40, R7, R84). -/
abbrev RspWord := BitVec 40

end Sys2Proof
end

