-- ==== Sys2Proof/Config.lean ====
section
/-!
DEFINITION. The implementation parameters of 00_scope.md R7 that are values (its widths are the types of Word.lean).
The spec fixes every one of them, and leaves no value of the block open (R13): there is no opaque constant here.
-/

namespace Sys2Proof.Config

/-- `P_SHIFT` (R7). -/
def pShift : Byte := 42

/-- `P_ESC_SHIFT` (R7). -/
def pEscShift : Byte := 64

/-- `P_ESC_BYTE`, the code of `=` (R7). -/
def pEscByte : Byte := 0x3D

/-- `P_CRC_POLY_R`, the bit-reversed generator (R7, R8). -/
def pCrcPolyR : Word := 0xEDB88320

/-- `P_CRC_INIT` (R7, R8). -/
def pCrcInit : Word := 0xFFFFFFFF

/-- `P_CRC_XOROUT` (R7, R8). -/
def pCrcXorOut : Word := 0xFFFFFFFF

/-- `SIEVE_EN` at hardware reset (R7, R50). -/
def sieveEnAtReset : Bool := true

/-- The number of register indices, 0x00 to 0x0C (R7, R45). -/
def regCount : Nat := 13

end Sys2Proof.Config
end

