-- ==== Sys2Proof/Syntax.lean ====
section
/-!
DEFINITION. The command set of 30_encoding.md R82: one constructor per row of spec/opcode_table.json, its operand taken
as it stands (R81: no extension, no scaling).
-/

namespace Sys2Proof

/-- The thirteen commands ("The thirteen commands of rule R82 are the whole instruction set", R95). -/
inductive Instr where
  /-- `SINIT`: begin a new session (R110). -/
  | sinit
  /-- `CFG f`: set the sieve option (R111). -/
  | cfg (f : Bool)
  /-- `RDREG i`: read a register view (R112). -/
  | rdreg (i : Byte)
  /-- `PBEGIN`: open a part without a number (R130). -/
  | pbegin
  /-- `PBEGINM n`: open part number `n` of a multipart stream (R131). -/
  | pbeginm (n : Word)
  /-- `DATA b`: one byte of a body line (R140). -/
  | data (b : Byte)
  /-- `PEND`: end of a part, validate it (R181). -/
  | pend
  /-- `SEND`: end of the stream, validate the session (R182). -/
  | send
  /-- `LDSIZEL w`: low half of the expected size (R160). -/
  | ldsizel (w : Word)
  /-- `LDSIZEH w`: high half of the expected size (R161). -/
  | ldsizeh (w : Word)
  /-- `LDPCRC w`: expected CRC-32 of the part (R162). -/
  | ldpcrc (w : Word)
  /-- `LDCRC w`: expected CRC-32 of the session (R163). -/
  | ldcrc (w : Word)
  /-- `CHKPART n`: the trailer's part number must be the part's (R164). -/
  | chkpart (n : Word)
  deriving DecidableEq, Repr

end Sys2Proof
end

