-- ==== Sys2Proof/WellFormed.lean ====
section
/-!
DEFINITION. Which terms of `Instr` stand for a command word. The operand types hold all of R81's shapes but one: a
register index must be at most 0x0C.
-/

namespace Sys2Proof

/-- Whether some command word spells `i` (R81, shape R; R45: indices 0x0D to 0xFF are reserved). -/
def Instr.wellFormed (i : Instr) : Bool :=
  match i with
  | .sinit => true
  | .cfg _ => true
  | .rdreg i => decide (i.toNat < Config.regCount)
  | .pbegin => true
  | .pbeginm _ => true
  | .data _ => true
  | .pend => true
  | .send => true
  | .ldsizel _ => true
  | .ldsizeh _ => true
  | .ldpcrc _ => true
  | .ldcrc _ => true
  | .chkpart _ => true

end Sys2Proof
end

