-- ==== Sys2Proof/Decode.lean ====
section
/-!
DEFINITION. The decoder of 30_encoding.md R83 ("a decoder reads `op` and then checks `arg` against the shape for that
`op`", R80), total on every 40-bit word, and the encoder written from the same table (R82).
-/

namespace Sys2Proof

/-- Why a word is an illegal encoding. All three have the same effect (R88, R210); the names are for the reader. -/
inductive IllegalKind where
  /-- `op` is not in the opcode map (R87). -/
  | reservedOpcode
  /-- An `arg` bit that must be 0 is 1 (R81, R88). -/
  | operandBits
  /-- `RDREG` with an index above 0x0C (R45, R88). -/
  | reservedIndex
  deriving DecidableEq, Repr

/-- What a command word spells: "`decode : CmdWord -> Cmd or ILLEGAL`" (R83). -/
inductive Decoded where
  | cmd (i : Instr)
  | illegal (why : IllegalKind)
  deriving DecidableEq, Repr

/-- Bits 39:32 of a command word (R80). -/
def opField (w : CmdWord) : Byte := w.extractLsb' 32 8

/-- Bits 31:0 of a command word (R80). -/
def argField (w : CmdWord) : Word := w.extractLsb' 0 32

/-- `{op, arg}` (R80). -/
def cmdWord (op : Byte) (arg : Word) : CmdWord := op ++ arg

/-- Operand shape N: 31:0 must be 0 (R81). -/
def shapeN (i : Instr) (arg : Word) : Decoded :=
  if arg = 0 then .cmd i else .illegal .operandBits

/-- Operand shape F: bit 0 is the flag, 31:1 must be 0 (R81). -/
def shapeF (mk : Bool → Instr) (arg : Word) : Decoded :=
  if arg.extractLsb' 1 31 = 0 then .cmd (mk (arg.getLsbD 0)) else .illegal .operandBits

/-- Operand shape R: 7:0 is an index of at most 0x0C, 31:8 must be 0 (R81). -/
def shapeR (mk : Byte → Instr) (arg : Word) : Decoded :=
  if arg.extractLsb' 8 24 = 0 then
    if (arg.extractLsb' 0 8).toNat < Config.regCount then .cmd (mk (arg.extractLsb' 0 8))
    else .illegal .reservedIndex
  else .illegal .operandBits

/-- Operand shape B: 7:0 is the byte, 31:8 must be 0 (R81). -/
def shapeB (mk : Byte → Instr) (arg : Word) : Decoded :=
  if arg.extractLsb' 8 24 = 0 then .cmd (mk (arg.extractLsb' 0 8)) else .illegal .operandBits

/-- Operand shape W: every 32-bit value is legal (R81). -/
def shapeW (mk : Word → Instr) (arg : Word) : Decoded := .cmd (mk arg)

/-- The command with opcode `op` and operand `arg`, if `arg` fits the shape of `op` (R81 to R83, R87, R88). -/
def decodeFields (op : Byte) (arg : Word) : Decoded :=
  if op = 0x01 then shapeN .sinit arg
  else if op = 0x02 then shapeF .cfg arg
  else if op = 0x03 then shapeR .rdreg arg
  else if op = 0x10 then shapeN .pbegin arg
  else if op = 0x11 then shapeW .pbeginm arg
  else if op = 0x12 then shapeB .data arg
  else if op = 0x13 then shapeN .pend arg
  else if op = 0x14 then shapeN .send arg
  else if op = 0x20 then shapeW .ldsizel arg
  else if op = 0x21 then shapeW .ldsizeh arg
  else if op = 0x22 then shapeW .ldpcrc arg
  else if op = 0x23 then shapeW .ldcrc arg
  else if op = 0x24 then shapeW .chkpart arg
  else .illegal .reservedOpcode

/-- `decode` of R83. -/
def decode (w : CmdWord) : Decoded := decodeFields (opField w) (argField w)

/-- The command word that an instruction of nbits bits with the bits `w` is: the hardware has one length, 40 bits (R80),
so bits above `nbits` and above 39 are 0. -/
def tableWord (nbits w : Nat) : CmdWord := BitVec.ofNat 40 (w % 2 ^ nbits)

/-- The instruction the decoder reads from a row's bits, `none` for an illegal encoding. -/
def decodeTableWord (nbits w : Nat) : Option Instr :=
  match decode (tableWord nbits w) with
  | .cmd i => some i
  | .illegal _ => none

/-- The opcode of a command (R82). -/
def opcodeOf (i : Instr) : Byte :=
  match i with
  | .sinit => 0x01
  | .cfg _ => 0x02
  | .rdreg _ => 0x03
  | .pbegin => 0x10
  | .pbeginm _ => 0x11
  | .data _ => 0x12
  | .pend => 0x13
  | .send => 0x14
  | .ldsizel _ => 0x20
  | .ldsizeh _ => 0x21
  | .ldpcrc _ => 0x22
  | .ldcrc _ => 0x23
  | .chkpart _ => 0x24

/-- The operand field of a command, bits that must be 0 as 0 (R81). -/
def operandOf (i : Instr) : Word :=
  match i with
  | .sinit => 0
  | .cfg f => (BitVec.ofBool f).setWidth 32
  | .rdreg i => i.setWidth 32
  | .pbegin => 0
  | .pbeginm n => n
  | .data b => b.setWidth 32
  | .pend => 0
  | .send => 0
  | .ldsizel w => w
  | .ldsizeh w => w
  | .ldpcrc w => w
  | .ldcrc w => w
  | .chkpart n => n

/-- The command word that spells a well-formed command (R80 to R82). -/
def encode (i : Instr) : CmdWord := cmdWord (opcodeOf i) (operandOf i)

/-- The mnemonic of a command (R82). -/
def mnemonicOf (i : Instr) : String :=
  match i with
  | .sinit => "SINIT"
  | .cfg _ => "CFG"
  | .rdreg _ => "RDREG"
  | .pbegin => "PBEGIN"
  | .pbeginm _ => "PBEGINM"
  | .data _ => "DATA"
  | .pend => "PEND"
  | .send => "SEND"
  | .ldsizel _ => "LDSIZEL"
  | .ldsizeh _ => "LDSIZEH"
  | .ldpcrc _ => "LDPCRC"
  | .ldcrc _ => "LDCRC"
  | .chkpart _ => "CHKPART"

end Sys2Proof
end

