-- ==== Sys2Proof/Machine/Crc.lean ====
section
/-!
DEFINITION. The CRC-32 of 42_sieve_data.md R142 and R149 (parameters 00_scope.md R8).
-/

namespace Sys2Proof.Machine

/-- One of the eight rounds of R142: shift right, and add the polynomial if the bit shifted out was 1. -/
def crcRound (r : Word) : Word :=
  if r.getLsbD 0 then (r >>> 1) ^^^ Config.pCrcPolyR else r >>> 1

/-- `n` rounds. -/
def crcRounds (n : Nat) (r : Word) : Word :=
  match n with
  | 0 => r
  | k + 1 => crcRounds k (crcRound r)

/-- `crc_step(r, v)`: the raw remainder after the byte `v` (R142). -/
def crcStep (r : Word) (v : Byte) : Word := crcRounds 8 (r ^^^ v.setWidth 32)

/-- `digest(r)` (00_scope.md R11). -/
def digest (r : Word) : Word := r ^^^ Config.pCrcXorOut

/-- `fold` of R149 from the raw remainder `r`. -/
def crcFold (r : Word) (bytes : List Byte) : Word := bytes.foldl crcStep r

/-- The CRC-32 of a byte sequence (R149). -/
def crc32 (bytes : List Byte) : Word := digest (crcFold Config.pCrcInit bytes)

end Sys2Proof.Machine
end

