-- ==== Sys2Proof/Machine/State.lean ====
section
/-!
DEFINITION. The state of YCV32: the block with the fifteen elements of 10_state.md R20, the two ports of 20_memory.md R61
beside it, and both after hardware reset (R50, R240).
-/

namespace Sys2Proof.Machine

/-- `PHASE` (10_state.md R30): all four 2-bit values are named, so no value of it is illegal. -/
inductive Phase where
  /-- No part open. -/
  | idle
  /-- A part is open. -/
  | body
  /-- The session ended without error. -/
  | done
  /-- An error was raised (60_exceptions.md R205). -/
  | fault
  deriving DecidableEq, Repr

/-- A move of the host that the block answers (70_reset_and_hazards.md R250). -/
inductive HostMove where
  /-- The host sends a command word. -/
  | command (w : CmdWord)
  /-- The host asserts hardware reset (R240). -/
  | hardReset
  deriving DecidableEq, Repr

/-- The state of the block: the elements of 10_state.md R20, "and nothing else". The command sequence and the bytes
already returned are not part of it (R35), nor is anything hidden (R36). -/
structure Block where
  /-- `SIEVE_EN` (R24). -/
  sieveEn : Bool
  /-- `PHASE` (R30). -/
  phase : Phase
  /-- `CAUSE` (R31). -/
  cause : BitVec 8
  /-- `ESC_PEND` (R32). -/
  escPend : Bool
  /-- `MULTIPART` (R33). -/
  multipart : Bool
  /-- `EXP_PCRC_V` (R28). -/
  expPcrcV : Bool
  /-- `EXP_CRC_V` (R29). -/
  expCrcV : Bool
  /-- `CRC_PART_RAW` (R21). -/
  crcPartRaw : Word
  /-- `CRC_SESS_RAW` (R22). -/
  crcSessRaw : Word
  /-- `LEN` (R23). -/
  len : DWord
  /-- `PARTS` (R25). -/
  parts : Word
  /-- `PART_NUM` (R26). -/
  partNum : Word
  /-- `EXP_SIZE` (R27). -/
  expSize : DWord
  /-- `EXP_PCRC` (R28). -/
  expPcrc : Word
  /-- `EXP_CRC` (R29). -/
  expCrc : Word
  deriving DecidableEq, Repr

/-- The machine: the block with its two ports (20_memory.md R61). The command sequence and the responses are not state
of the block but the parameter and the output of R6's function (R35); the host's `step` has no other place for them, so
they stand BESIDE the block (DESIGN CHOICE, notes/assumptions/8.md; what they hold: 1.md and 2.md). A meaning is a function of the block
alone (`answered`, Ops.lean), so no element can depend on a port. -/
structure State extends Block where
  /-- The command port (R61): the host's moves the block has not taken yet, in the order it takes them (R66). -/
  cmdPort : List HostMove
  /-- The response port (R61): the responses since reset, the n-th answering the n-th command. -/
  rspPort : List RspWord
  deriving DecidableEq, Repr

/-- The reasons a step can stop with a fault: there is none. The spec gives every word in every phase an effect after
which the block goes on (R91, R250: "every word in every phase has a rule"); its own FAULT phase is a state
(`Phase.fault`), not this outcome (notes/assumptions/4.md). -/
inductive Fault where
  deriving DecidableEq, Repr

/-- The reasons a step can be refused. -/
inductive Refusal where
  /-- Raised by an arm of `exec` for a command that has no meaning yet; no arm does (safe: the model would stop where
  the hardware goes on). -/
  | notModelled (mnemonic : String)
  deriving DecidableEq, Repr

/-- Every element at its reset value (R50, R241). -/
def Block.reset : Block where
  sieveEn := Config.sieveEnAtReset
  phase := .idle
  cause := 0x00
  escPend := false
  multipart := false
  expPcrcV := false
  expCrcV := false
  crcPartRaw := Config.pCrcInit
  crcSessRaw := Config.pCrcInit
  len := 0
  parts := 0
  partNum := 0
  expSize := 0
  expPcrc := 0
  expCrc := 0

/-- The machine after hardware reset: the block as R50 says, nothing presented on the command port yet and no response
since reset (R240). -/
def State.reset : State where
  toBlock := Block.reset
  cmdPort := []
  rspPort := []

end Sys2Proof.Machine
end

