-- ==== Sys2Proof/Machine/Flags.lean ====
section
/-!
DEFINITION. The tests the checks make (44_validate.md R180: unsigned equality only) and the word a flag is answered as.
There are no arithmetic condition codes (10_state.md R33).
-/

namespace Sys2Proof.Machine

/-- `LEN` = 2^64 - 1: one more emitted byte would not fit (R145). -/
def lenFull (s : Block) : Bool := s.len == BitVec.allOnes 64

/-- `PARTS` = 2^32 - 1: one more part would not fit (R181 step 1). -/
def partsFull (s : Block) : Bool := s.parts == BitVec.allOnes 32

/-- `LEN` != `EXP_SIZE` (R181 step 3). -/
def sizeDiffers (s : Block) : Bool := s.len != s.expSize

/-- `EXP_PCRC_V` = 1 and the part's digest differs from `EXP_PCRC` (R181 step 4). -/
def partCrcDiffers (s : Block) : Bool := s.expPcrcV && digest s.crcPartRaw != s.expPcrc

/-- The gate of R183: `(MULTIPART == 0) or (PARTS == PART_NUM)`. -/
def sessionGate (s : Block) : Bool := !s.multipart || s.parts == s.partNum

/-- Whether `SEND` runs the whole-session CRC check (R182 steps 2 and 3). -/
def sessionCrcRuns (s : Block) : Bool := sessionGate s && s.expCrcV

/-- The session's digest differs from `EXP_CRC` (R182 step 3). -/
def sessionCrcDiffers (s : Block) : Bool := digest s.crcSessRaw != s.expCrc

/-- `zext_32` of a flag (R86, R181 step 6). -/
def flagWord (f : Bool) : Word := (BitVec.ofBool f).setWidth 32

end Sys2Proof.Machine
end

