-- ==== Sys2Proof/Machine/Operands.lean ====
section
/-!
DEFINITION. The operand forms: the read views `x[i]` that `RDREG` names by index (10_state.md R45, R46) and the halves
of a 64-bit element (20_memory.md R63 item 4).
-/

namespace Sys2Proof.Machine

/-- The 2-bit value of `PHASE` (R30). -/
def phaseCode (p : Phase) : BitVec 2 :=
  match p with
  | .idle => 0
  | .body => 1
  | .done => 2
  | .fault => 3

/-- Bits 31:0 of a 64-bit element. -/
def lowHalf (v : DWord) : Word := v.extractLsb' 0 32

/-- Bits 63:32 of a 64-bit element. -/
def highHalf (v : DWord) : Word := v.extractLsb' 32 32

/-- `{v[63:32], lo}`: the low half replaced (R160). -/
def withLowHalf (v : DWord) (lo : Word) : DWord := highHalf v ++ lo

/-- `{hi, v[31:0]}`: the high half replaced (R161). -/
def withHighHalf (v : DWord) (hi : Word) : DWord := hi ++ lowHalf v

/-- The `STATUS` view (R46): `{26'b0, EXP_CRC_V, EXP_PCRC_V, MULTIPART, ESC_PEND, PHASE[1:0]}`. -/
def statusView (s : Block) : Word :=
  (0 : BitVec 26) ++ BitVec.ofBool s.expCrcV ++ BitVec.ofBool s.expPcrcV ++ BitVec.ofBool s.multipart
    ++ BitVec.ofBool s.escPend ++ phaseCode s.phase

/-- The read view `x[i]` (R45), `none` for the reserved indices 0x0D to 0xFF. -/
def regView (s : Block) (i : Byte) : Option Word :=
  if i = 0x00 then some ((BitVec.ofBool s.sieveEn).setWidth 32)
  else if i = 0x01 then some (statusView s)
  else if i = 0x02 then some (s.cause.setWidth 32)
  else if i = 0x03 then some s.partNum
  else if i = 0x04 then some s.parts
  else if i = 0x05 then some (lowHalf s.len)
  else if i = 0x06 then some (highHalf s.len)
  else if i = 0x07 then some (lowHalf s.expSize)
  else if i = 0x08 then some (highHalf s.expSize)
  else if i = 0x09 then some (digest s.crcPartRaw)
  else if i = 0x0A then some (digest s.crcSessRaw)
  else if i = 0x0B then some s.expPcrc
  else if i = 0x0C then some s.expCrc
  else none

end Sys2Proof.Machine
end

