-- ==== Sys2Proof/Machine/Sieve.lean ====
section
/-!
DEFINITION. The byte sieve of 42_sieve_data.md R141, the sieve over a byte sequence, and the test-only encoder of R150.
-/

namespace Sys2Proof.Machine

/-- Case 3 of R141: `(b - 42) mod 256`. -/
def plainByte (b : Byte) : Byte := b - Config.pShift

/-- Case 1 of R141: `((b - 42) mod 256 - 64) mod 256`. -/
def escapedByte (b : Byte) : Byte := b - Config.pShift - Config.pEscShift

/-- `sieve(en, esc, b)` (R141): the emitted byte, if one is emitted, and the new `ESC_PEND`. The cases are tested in
the order of the table; case 0 is bypass (R144). -/
def sieve (en esc : Bool) (b : Byte) : Option Byte × Bool :=
  if en = false then (some b, esc)
  else if esc = true then (some (escapedByte b), false)
  else if b = Config.pEscByte then (none, true)
  else (some (plainByte b), false)

/-- The sieve over a sequence of input bytes: the emitted bytes in order, and the last `ESC_PEND` (R141, R146). -/
def sieveAll (en esc : Bool) (bs : List Byte) : List Byte × Bool :=
  match bs with
  | [] => ([], esc)
  | b :: rest =>
    ((sieve en esc b).1.toList ++ (sieveAll en (sieve en esc b).2 rest).1, (sieveAll en (sieve en esc b).2 rest).2)

/-- The number of bytes of a sequence that take case 2 of R141, the escape markers (R151). -/
def markersIn (en esc : Bool) (bs : List Byte) : Nat :=
  match bs with
  | [] => 0
  | b :: rest =>
    (if en = true ∧ esc = false ∧ b = Config.pEscByte then 1 else 0) + markersIn en (sieve en esc b).2 rest

/-- The one or two bytes that the test-only encoder `enc_E` gives for a byte (R150). -/
def encodeByte (escaped : List Byte) (x : Byte) : List Byte :=
  if x + Config.pShift ∈ escaped then [Config.pEscByte, x + Config.pShift + Config.pEscShift] else [x + Config.pShift]

/-- The test-only encoder `enc_E(s)` (R150). -/
def encodeBytes (escaped : List Byte) (s : List Byte) : List Byte := s.flatMap (encodeByte escaped)

end Sys2Proof.Machine
end

