-- ==== Sys2Proof/Machine/Ops.lean ====
section
/-!
DEFINITION. The operations the commands share: the response (30_encoding.md R84), raising an error and discarding
(60_exceptions.md R204, R206), what leaves FAULT (R207), the phase legality table (30_encoding.md R90), the fresh part
(41_part_begin.md) and the fetch of the host's next move (20_memory.md R66).
-/

namespace Sys2Proof.Machine

/-- The nine errors of 60_exceptions.md R200. -/
inductive ErrorCause where
  /-- `E_ILLEGAL`: illegal encoding (R210). -/
  | illegal
  /-- `E_PROTO`: command not legal in the current phase (R211). -/
  | proto
  /-- `E_TRUNC`: `SEND` in BODY (R212). -/
  | trunc
  /-- `E_PART_ORDER`: `CHKPART` with another part number (R213). -/
  | partOrder
  /-- `E_SIZE`: size mismatch at `PEND` (R214). -/
  | size
  /-- `E_CRC_PART`: part CRC mismatch at `PEND` (R215). -/
  | crcPart
  /-- `E_NO_PARTS`: `SEND` with no part counted (R216). -/
  | noParts
  /-- `E_CRC_SESS`: session CRC mismatch at `SEND` (R217). -/
  | crcSess
  /-- `E_OVERFLOW`: a counter would pass its maximum (R218). -/
  | overflow
  deriving DecidableEq, Repr

/-- `code(E)` (R200). -/
def causeCode (e : ErrorCause) : Byte :=
  match e with
  | .illegal => 0x01
  | .proto => 0x02
  | .trunc => 0x03
  | .partOrder => 0x04
  | .size => 0x05
  | .crcPart => 0x06
  | .noParts => 0x07
  | .crcSess => 0x08
  | .overflow => 0x09

/-- The response code `OK` (R85). -/
def codeOk : Byte := 0x00

/-- The response code `DISCARDED` (R85). -/
def codeDiscarded : Byte := 0x7F

/-- The response word `{code, val}` (R84). -/
def rspWord (code : Byte) (val : Word) : RspWord := code ++ val

/-- What a command does: the elements after it and its one response, R6's `State x RspWord`. -/
abbrev Reply := Block × RspWord

/-- `respond(code, val)` (00_scope.md R11): the command ends with these elements and this response. -/
def respond (code : Byte) (val : Word) (s : Block) : Reply := (s, rspWord code val)

/-- `PHASE <- p` (00_scope.md R11: the block's sequencing). -/
def setPhase (p : Phase) (s : Block) : Block := { s with phase := p }

/-- `PHASE <- FAULT; CAUSE <- code(E)` (00_scope.md R12). -/
def recordError (e : ErrorCause) (s : Block) : Block := { s with phase := .fault, cause := causeCode e }

/-- TAKING AN EXCEPTION, `raise E` (00_scope.md R12, 60_exceptions.md R204): PHASE and CAUSE are written and the code is
the response; nothing is saved and nothing else changes. -/
def raise (e : ErrorCause) (s : Block) : Reply := respond (causeCode e) 0 (recordError e s)

/-- What FAULT does with a word it does not run (60_exceptions.md R206). -/
def discard (s : Block) : Reply := respond codeDiscarded 0 s

/-- LEAVING FAULT: every element but `SIEVE_EN` at its reset value, the writes of `SINIT` (40_control.md R110, R207,
10_state.md R51). -/
def newSession (s : Block) : Block :=
  { s with
    phase := .idle
    cause := 0x00
    escPend := false
    multipart := false
    expPcrcV := false
    expPcrc := 0
    expCrcV := false
    expCrc := 0
    crcPartRaw := Config.pCrcInit
    crcSessRaw := Config.pCrcInit
    len := 0
    parts := 0
    partNum := 0
    expSize := 0 }

/-- The fresh part and body start of `PBEGIN` and `PBEGINM` with part number `n` (41_part_begin.md R130, R131). -/
def openPart (n : Word) (s : Block) : Block :=
  { s with
    partNum := n
    escPend := false
    crcPartRaw := Config.pCrcInit
    len := 0
    expSize := 0
    expPcrc := 0
    expPcrcV := false
    phase := .body }

/-- `SIEVE_EN <- f` (40_control.md R111). -/
def setSieve (f : Bool) (s : Block) : Block := { s with sieveEn := f }

/-- `MULTIPART <- 1` (41_part_begin.md R131). -/
def setMultipart (s : Block) : Block := { s with multipart := true }

/-- `ESC_PEND <- p` (42_sieve_data.md R140). -/
def setEscape (p : Bool) (s : Block) : Block := { s with escPend := p }

/-- An emitted byte feeds both accumulators and is counted (42_sieve_data.md R140). -/
def emitByte (v : Byte) (s : Block) : Block :=
  { s with crcPartRaw := crcStep s.crcPartRaw v, crcSessRaw := crcStep s.crcSessRaw v, len := s.len + 1 }

/-- `EXP_SIZE <- v` (43_trailer.md R160, R161). -/
def loadSize (v : DWord) (s : Block) : Block := { s with expSize := v }

/-- `EXP_PCRC <- w; EXP_PCRC_V <- 1` (43_trailer.md R162). -/
def loadPartCrc (w : Word) (s : Block) : Block := { s with expPcrc := w, expPcrcV := true }

/-- `EXP_CRC <- w; EXP_CRC_V <- 1` (43_trailer.md R163). -/
def loadSessCrc (w : Word) (s : Block) : Block := { s with expCrc := w, expCrcV := true }

/-- The part is counted (44_validate.md R181 step 2). -/
def countPart (s : Block) : Block := { s with parts := s.parts + 1 }

/-- An entry of the phase legality table (30_encoding.md R90). -/
inductive Admission where
  /-- "run": the command's own rule applies. -/
  | run
  /-- The command raises the error and does nothing else. -/
  | raises (e : ErrorCause)
  /-- The command is discarded (R206). -/
  | discards
  deriving DecidableEq, Repr

/-- R90's row of `SINIT` and `RDREG`. -/
def anyPhase (p : Phase) : Admission :=
  match p with
  | .idle => .run
  | .body => .run
  | .done => .run
  | .fault => .run

/-- R90's row of `CFG`, `PBEGIN` and `PBEGINM`. -/
def idleOnly (p : Phase) : Admission :=
  match p with
  | .idle => .run
  | .body => .raises .proto
  | .done => .raises .proto
  | .fault => .discards

/-- R90's row of `DATA`, the trailer commands and `PEND`. -/
def bodyOnly (p : Phase) : Admission :=
  match p with
  | .idle => .raises .proto
  | .body => .run
  | .done => .raises .proto
  | .fault => .discards

/-- R90's row of `SEND`: the stream ended inside a part in BODY (R212). -/
def endOfStream (p : Phase) : Admission :=
  match p with
  | .idle => .run
  | .body => .raises .trunc
  | .done => .raises .proto
  | .fault => .discards

/-- R90's row of an illegal encoding (R88, R210); it runs in no phase. -/
def illegalWord (p : Phase) : Admission :=
  match p with
  | .idle => .raises .illegal
  | .body => .raises .illegal
  | .done => .raises .illegal
  | .fault => .discards

/-- The order of tests of 30_encoding.md R91 after decoding: the phase's entry in the command's row decides whether its
own rule `run` applies. -/
def guarded (row : Phase → Admission) (run : Block → Reply) (s : Block) : Reply :=
  match row s.phase with
  | .run => run s
  | .raises e => raise e s
  | .discards => discard s

/-- What the block does with an illegal encoding (R88, R206, R210); its row admits it in no phase. -/
def illegal (s : Block) : Reply := guarded illegalWord (raise .illegal) s

/-- One command on the machine: the block's function `run` gives the elements and the response, the response joins the
response port, and nothing of the ports reaches the block (R6, R35, R36). -/
def answered (run : Block → Reply) (s : State) : State where
  toBlock := (run s.toBlock).1
  cmdPort := s.cmdPort
  rspPort := s.rspPort ++ [(run s.toBlock).2]


/-- The hardware reset event (70_reset_and_hazards.md R240): every element at its reset value, no response, the counting
of responses from 1 again. The moves still in `cmdPort` are what the host does after it (notes/assumptions/1.md). -/
def hardReset (s : State) : State := { State.reset with cmdPort := s.cmdPort }

/-- FETCH: the host's next move, taken off the command port (20_memory.md R66); `none` while the block waits. -/
def takeMove (s : State) : Option (HostMove × State) :=
  match s.cmdPort with
  | [] => none
  | m :: rest => some (m, { s with cmdPort := rest })

/-- `s` with the host presenting the command word `w` before its other moves. -/
def presented (w : CmdWord) (s : State) : State := { s with cmdPort := .command w :: s.cmdPort }

end Sys2Proof.Machine
end

