-- ==== Sys2Proof/Machine/Data.lean ====
section
/-!
DEFINITION. The data command DATA (42_sieve_data.md R140).
-/

namespace Sys2Proof.Machine

/-- The `val` that answers an emitted byte: `0x00000100 + v` (30_encoding.md R86). -/
def emittedVal (v : Byte) : Word := 0x00000100 + v.setWidth 32

/-- The pseudocode of R140 in BODY: the overflow test of R145 comes before any write. -/
def runData (b : Byte) (s : Block) : Reply :=
  match sieve s.sieveEn s.escPend b with
  | (none, p) => respond codeOk 0 (setEscape p s)
  | (some v, p) =>
    if lenFull s then raise .overflow s
    else respond codeOk (emittedVal v) (emitByte v (setEscape p s))

/-- `DATA b` (R140): legal in BODY only. -/
def execData (b : Byte) (s : State) : Host.Outcome State Fault Refusal :=
  .next (answered (guarded bodyOnly (runData b)) s)

end Sys2Proof.Machine
end

