-- ==== Sys2Proof/Machine/PartBegin.lean ====
section
/-!
DEFINITION. The commands that open a part, PBEGIN and PBEGINM (41_part_begin.md).
-/

namespace Sys2Proof.Machine

/-- `PBEGIN` (R130): the part's number is 0, `MULTIPART` stays. -/
def execPbegin (s : State) : Host.Outcome State Fault Refusal :=
  .next (answered (guarded idleOnly (fun s => respond codeOk 0 (openPart 0 s))) s)

/-- `PBEGINM n` (R131): the part's number is `n`, `MULTIPART` is set. -/
def execPbeginm (n : Word) (s : State) : Host.Outcome State Fault Refusal :=
  .next (answered (guarded idleOnly (fun s => respond codeOk 0 (openPart n (setMultipart s)))) s)

end Sys2Proof.Machine
end

