-- ==== Sys2Proof/Machine/Session.lean ====
section
/-!
DEFINITION. The session and configuration commands SINIT, CFG and RDREG (40_control.md).
-/

namespace Sys2Proof.Machine

/-- `SINIT` (R110): legal in every phase. -/
def execSinit (s : State) : Host.Outcome State Fault Refusal :=
  .next (answered (guarded anyPhase (fun s => respond codeOk 0 (newSession s))) s)

/-- `CFG f` (R111): legal in IDLE only. -/
def execCfg (f : Bool) (s : State) : Host.Outcome State Fault Refusal :=
  .next (answered (guarded idleOnly (fun s => respond codeOk 0 (setSieve f s))) s)

/-- `respond(OK, x[i])` (R112); an index with no view is an illegal encoding (R45, R88; notes/assumptions/7.md). -/
def readView (i : Byte) (s : Block) : Reply :=
  match regView s i with
  | some v => guarded anyPhase (respond codeOk v) s
  | none => illegal s

/-- `RDREG i` (R112): legal in every phase, no element changes. An index above 0x0C is an illegal encoding (R45, R88),
which no decoded command has. -/
def execRdreg (i : Byte) (s : State) : Host.Outcome State Fault Refusal :=
  .next (answered (readView i) s)

end Sys2Proof.Machine
end

