-- ==== Sys2Proof/Machine/Trailer.lean ====
section
/-!
DEFINITION. The trailer commands LDSIZEL, LDSIZEH, LDPCRC, LDCRC and CHKPART (43_trailer.md), all legal in BODY only.
-/

namespace Sys2Proof.Machine

/-- `LDSIZEL w` (R160): the high half stays. -/
def execLdsizel (w : Word) (s : State) : Host.Outcome State Fault Refusal :=
  .next (answered (guarded bodyOnly (fun s => respond codeOk 0 (loadSize (withLowHalf s.expSize w) s))) s)

/-- `LDSIZEH w` (R161): the low half stays. -/
def execLdsizeh (w : Word) (s : State) : Host.Outcome State Fault Refusal :=
  .next (answered (guarded bodyOnly (fun s => respond codeOk 0 (loadSize (withHighHalf s.expSize w) s))) s)

/-- `LDPCRC w` (R162). -/
def execLdpcrc (w : Word) (s : State) : Host.Outcome State Fault Refusal :=
  .next (answered (guarded bodyOnly (fun s => respond codeOk 0 (loadPartCrc w s))) s)

/-- `LDCRC w` (R163). -/
def execLdcrc (w : Word) (s : State) : Host.Outcome State Fault Refusal :=
  .next (answered (guarded bodyOnly (fun s => respond codeOk 0 (loadSessCrc w s))) s)

/-- `CHKPART n` (R164): the check is made when the command arrives. -/
def execChkpart (n : Word) (s : State) : Host.Outcome State Fault Refusal :=
  .next (answered (guarded bodyOnly (fun s => if n = s.partNum then respond codeOk 0 s else raise .partOrder s)) s)

end Sys2Proof.Machine
end

