-- ==== Sys2Proof/Machine/Validate.lean ====
section
/-!
DEFINITION. The validation commands PEND and SEND (44_validate.md).
-/

namespace Sys2Proof.Machine

/-- Steps 3 to 6 of `PEND` (R181), on the state that has counted the part. -/
def validatePart (s : Block) : Reply :=
  if sizeDiffers s then raise .size s
  else if partCrcDiffers s then raise .crcPart s
  else respond codeOk (flagWord s.expPcrcV) (setPhase .idle s)

/-- `PEND` (R181): count the part, then validate it; the count stays when the validation raises. -/
def execPend (s : State) : Host.Outcome State Fault Refusal :=
  .next (answered (guarded bodyOnly (fun s => if partsFull s then raise .overflow s else validatePart (countPart s))) s)

/-- Steps 2 to 5 of `SEND` (R182). -/
def validateSession (s : Block) : Reply :=
  if sessionCrcRuns s && sessionCrcDiffers s then raise .crcSess s
  else respond codeOk (flagWord (sessionCrcRuns s)) (setPhase .done s)

/-- `SEND` (R182): legal in IDLE; in BODY it raises E_TRUNC. -/
def execSend (s : State) : Host.Outcome State Fault Refusal :=
  .next (answered (guarded endOfStream (fun s => if s.parts = 0 then raise .noParts s else validateSession s)) s)

end Sys2Proof.Machine
end

