-- ==== Sys2Proof/Machine/Dispatch.lean ====
section
/-!
DEFINITION. The meaning of each command, one arm per constructor (30_encoding.md R91, "run c").
-/

namespace Sys2Proof.Machine

def exec (i : Instr) (s : State) : Host.Outcome State Fault Refusal :=
  match i with
  | .sinit => Sys2Proof.Machine.execSinit s
  | .cfg f => Sys2Proof.Machine.execCfg f s
  | .rdreg r => Sys2Proof.Machine.execRdreg r s
  | .pbegin => Sys2Proof.Machine.execPbegin s
  | .pbeginm n => Sys2Proof.Machine.execPbeginm n s
  | .data b => Sys2Proof.Machine.execData b s
  | .pend => Sys2Proof.Machine.execPend s
  | .send => Sys2Proof.Machine.execSend s
  | .ldsizel w => Sys2Proof.Machine.execLdsizel w s
  | .ldsizeh w => Sys2Proof.Machine.execLdsizeh w s
  | .ldpcrc w => Sys2Proof.Machine.execLdpcrc w s
  | .ldcrc w => Sys2Proof.Machine.execLdcrc w s
  | .chkpart n => Sys2Proof.Machine.execChkpart n s

end Sys2Proof.Machine
end

