-- ==== Sys2Proof/Machine/Step.lean ====
section
/-!
DEFINITION. One step: the block takes the host's next move and completes it (00_scope.md R6, 20_memory.md R66,
30_encoding.md R91).
-/

namespace Sys2Proof.Machine

/-- What the block does with one command word (R91). -/
def runWord (w : CmdWord) (s : State) : Host.Outcome State Fault Refusal :=
  match decode w with
  | .cmd i => exec i s
  | .illegal _ => .next (answered illegal s)

/-- One step. With nothing presented the block waits: "it never acts without a command" (R250; DEDUCED,
notes/assumptions/3.md). -/
def step (s : State) : Host.Outcome State Fault Refusal :=
  match takeMove s with
  | none => .next s
  | some (.command w, rest) => runWord w rest
  | some (.hardReset, rest) => .next (hardReset rest)

/-- `s` with the host presenting that instruction as its next move (notes/assumptions/5.md). -/
def State.withFetchWord (s : State) (nbits w : Nat) : State := presented (tableWord nbits w) s

end Sys2Proof.Machine
end

