-- ==== Sys2Proof/Machine/Assembler.lean ====
section
/-!
DEFINITION. The assembler syntax of 30_encoding.md R92 and the pseudo-instructions of R93. It is the spec's notation for
command sequences; nothing in the machine reads it (notes/assumptions/6.md).
-/

namespace Sys2Proof.Machine

/-- The expansion of `LDSIZE v` (R93): both halves always. -/
def ldsizeCommands (v : DWord) : List Instr := [.ldsizel (v.extractLsb' 0 32), .ldsizeh (v.extractLsb' 32 32)]

/-- The expansion of `BYTES b0 b1 ... bn` (R93). -/
def bytesCommands (bs : List Byte) : List Instr := bs.map .data

/-- The byte code of a character, `none` where it has no one-byte code. -/
def charByte (c : Char) : Option Byte := if c.toNat < 256 then some (BitVec.ofNat 8 c.toNat) else none

/-- The expansion of `LINE "..."` (R93): the bytes of the characters' codes, without a line terminator. -/
def lineCommands (cs : List Char) : Option (List Instr) := (cs.mapM charByte).map bytesCommands

/-- A piece of an assembler line. -/
inductive AsmToken where
  /-- A mnemonic, a number or a register name. -/
  | word (cs : List Char)
  /-- The text between two double quotes. -/
  | quoted (cs : List Char)
  deriving DecidableEq, Repr

/-- Where the lexer stands in a line; the characters read so far are kept last first. -/
inductive LexMode where
  | between
  | inWord (cs : List Char)
  | inQuotes (cs : List Char)
  deriving DecidableEq, Repr

/-- The tokens of a line; `--` outside quotes starts a comment (R92); `none` for an open quote. -/
def lexLine (mode : LexMode) (line : List Char) : Option (List AsmToken) :=
  match mode, line with
  | .between, [] => some []
  | .between, '-' :: '-' :: _ => some []
  | .between, ' ' :: rest => lexLine .between rest
  | .between, '"' :: rest => lexLine (.inQuotes []) rest
  | .between, c :: rest => lexLine (.inWord [c]) rest
  | .inWord cs, [] => some [.word cs.reverse]
  | .inWord cs, '-' :: '-' :: _ => some [.word cs.reverse]
  | .inWord cs, ' ' :: rest => (lexLine .between rest).map (.word cs.reverse :: ·)
  | .inWord cs, c :: rest => lexLine (.inWord (c :: cs)) rest
  | .inQuotes _, [] => none
  | .inQuotes cs, '"' :: rest => (lexLine .between rest).map (.quoted cs.reverse :: ·)
  | .inQuotes cs, c :: rest => lexLine (.inQuotes (c :: cs)) rest

/-- The value of a digit below `base`, letters of either case. -/
def digitValue (base : Nat) (c : Char) : Option Nat :=
  let v := if '0' ≤ c ∧ c ≤ '9' then c.toNat - '0'.toNat
    else if 'A' ≤ c ∧ c ≤ 'F' then c.toNat - 'A'.toNat + 10
    else if 'a' ≤ c ∧ c ≤ 'f' then c.toNat - 'a'.toNat + 10
    else base
  if v < base then some v else none

/-- The number whose further digits are `cs`, most significant first. -/
def digitsValue (base acc : Nat) (cs : List Char) : Option Nat :=
  match cs with
  | [] => some acc
  | c :: rest => (digitValue base c).bind fun d => digitsValue base (acc * base + d) rest

/-- "Numbers are decimal or `0x` hexadecimal" (R92). -/
def number (cs : List Char) : Option Nat :=
  match cs with
  | [] => none
  | ['0', 'x'] => none
  | '0' :: 'x' :: digits => digitsValue 16 0 digits
  | digits => digitsValue 10 0 digits

/-- A number operand of `n` bits, `none` where the number does not fit (never truncated). -/
def operand (n : Nat) (t : AsmToken) : Option (BitVec n) :=
  match t with
  | .word cs => (number cs).bind fun v => if v < 2 ^ n then some (BitVec.ofNat n v) else none
  | .quoted _ => none

/-- The register names of 10_state.md R45 with their indices. -/
def registerNames : List (String × Byte) :=
  [("CFG", 0x00), ("STATUS", 0x01), ("CAUSE", 0x02), ("PART_NUM", 0x03), ("PARTS", 0x04), ("LEN_LO", 0x05),
   ("LEN_HI", 0x06), ("EXP_SIZE_LO", 0x07), ("EXP_SIZE_HI", 0x08), ("CRC_PART", 0x09), ("CRC_SESS", 0x0A),
   ("EXP_PCRC", 0x0B), ("EXP_CRC", 0x0C)]

/-- A register operand, `RDREG 0x09` or `RDREG CRC_PART` (R92). -/
def registerOperand (t : AsmToken) : Option Byte :=
  match t with
  | .word cs => ((registerNames.lookup (String.ofList cs)).or (operand 8 t)).filter fun i => i.toNat < Config.regCount
  | .quoted _ => none

/-- A command or pseudo-instruction without an operand. -/
def assembleBare (name : String) : Option (List Instr) :=
  if name = "SINIT" then some [.sinit]
  else if name = "PBEGIN" then some [.pbegin]
  else if name = "PEND" then some [.pend]
  else if name = "SEND" then some [.send]
  else none

/-- A command or pseudo-instruction with one operand. -/
def assembleWith (name : String) (t : AsmToken) : Option (List Instr) :=
  if name = "CFG" then (operand 1 t).map fun f => [.cfg (f.getLsbD 0)]
  else if name = "RDREG" then (registerOperand t).map fun i => [.rdreg i]
  else if name = "PBEGINM" then (operand 32 t).map fun n => [.pbeginm n]
  else if name = "DATA" then (operand 8 t).map fun b => [.data b]
  else if name = "LDSIZEL" then (operand 32 t).map fun w => [.ldsizel w]
  else if name = "LDSIZEH" then (operand 32 t).map fun w => [.ldsizeh w]
  else if name = "LDPCRC" then (operand 32 t).map fun w => [.ldpcrc w]
  else if name = "LDCRC" then (operand 32 t).map fun w => [.ldcrc w]
  else if name = "CHKPART" then (operand 32 t).map fun n => [.chkpart n]
  else if name = "LDSIZE" then (operand 64 t).map ldsizeCommands
  else none

/-- The commands of one line (R92, R93), `none` where the line is not of the syntax. -/
def assembleTokens (ts : List AsmToken) : Option (List Instr) :=
  match ts with
  | [] => some []
  | [.word name] => assembleBare (String.ofList name)
  | .word name :: t :: more =>
    if String.ofList name = "BYTES" then ((t :: more).mapM (operand 8)).map bytesCommands
    else match t, more with
      | .quoted cs, [] => if String.ofList name = "LINE" then lineCommands cs else none
      | _, [] => assembleWith (String.ofList name) t
      | _, _ => none
  | _ => none

/-- The commands of one line of text. -/
def assembleLine (line : String) : Option (List Instr) := (lexLine .between line.toList).bind assembleTokens

/-- A program: one command a line, "a sequence, with no labels and no control flow" (R92). -/
def assemble (lines : List String) : Option (List Instr) := (lines.mapM assembleLine).map List.flatten

end Sys2Proof.Machine
end

