-- ==== Sys2Proof/Safety.lean ====
section
/-!
DEFINITION. The terms the statements use: the elements of a state apart from its ports, the fields of a response, what a
failed and what a successful session is (60_exceptions.md R205), the invariants of 10_state.md R52, and the log a host
keeps of a session.
-/

namespace Sys2Proof.Machine

/-- The fifteen elements of `s` alone, without the ports beside them (R20, R36). -/
abbrev State.elements (s : State) : Block := s.toBlock

/-- `code`, bits 39:32 of a response word (R84). -/
def rspCode (r : RspWord) : Byte := r.extractLsb' 32 8

/-- `val`, bits 31:0 of a response word (R84). -/
def rspVal (r : RspWord) : Word := r.extractLsb' 0 32

/-- The byte that the response to a `DATA` command hands to the host, if it hands one (R86, R140). -/
def handedByte (r : RspWord) : Option Byte :=
  if rspCode r = codeOk ∧ (rspVal r).getLsbD 8 = true then some ((rspVal r).extractLsb' 0 8) else none

/-- `n` steps of the machine (Host/Core.lean's run of it). -/
def runs (n : Nat) (s : State) : Host.Outcome State Fault Refusal := Host.Core.run Sys2Proof.core n s

/-- `s` after a command that completed with the response `val` (R84, R85 code 0x00). -/
def afterOk (val : Word) (s : State) : State := { s with rspPort := s.rspPort ++ [(0x00 : Byte) ++ val] }

/-- `s` after a command that raised the error with code `code` (00_scope.md R12). -/
def afterError (code : Byte) (s : State) : State :=
  { s with phase := .fault, cause := code, rspPort := s.rspPort ++ [code ++ (0x00000000 : Word)] }

/-- `s` after a discarded word (60_exceptions.md R206). -/
def afterDiscard (s : State) : State := { s with rspPort := s.rspPort ++ [(0x7F00000000 : RspWord)] }

/-- The word of `DATA b` (R140: words 0x1200000000 to 0x12000000FF). -/
def dataWord (b : Byte) : CmdWord := (0x12 : Byte) ++ b.setWidth 32

/-- The phases in which a command runs, the "run" entries of 30_encoding.md R90. -/
def legalPhases (i : Instr) : List Phase :=
  match i with
  | .sinit => [.idle, .body, .done, .fault]
  | .rdreg _ => [.idle, .body, .done, .fault]
  | .cfg _ => [.idle]
  | .pbegin => [.idle]
  | .pbeginm _ => [.idle]
  | .send => [.idle]
  | .data _ => [.body]
  | .ldsizel _ => [.body]
  | .ldsizeh _ => [.body]
  | .ldpcrc _ => [.body]
  | .ldcrc _ => [.body]
  | .chkpart _ => [.body]
  | .pend => [.body]

/-- An error was raised in this session: the spec's fault outcome (R205). -/
abbrev Faulted (s : State) : Prop := s.phase = .fault

/-- The session ended without error: "only DONE is" a successful end (R205). -/
abbrev Succeeded (s : State) : Prop := s.phase = .done

/-- Items 1, 2 and 7 of R52, and no `CAUSE` above the nine codes (R200: "Codes 0x0A to 0xFF are never written to
`CAUSE`"). -/
abbrev SessionInv (s : State) : Prop :=
  (s.cause = 0 ↔ s.phase ≠ .fault) ∧ s.cause.toNat ≤ 9 ∧
  (s.phase = .body → s.sieveEn = false → s.escPend = false) ∧ (s.phase = .done → 1 ≤ s.parts.toNat)

/-- What is not set reads as zero: an expected CRC whose flag is clear, and the part number of a session in which no
`PBEGINM` completed (consequences of R47, R50). -/
abbrev UnsetReadsZero (s : State) : Prop :=
  (s.expPcrcV = false → s.expPcrc = 0) ∧ (s.expCrcV = false → s.expCrc = 0) ∧
  (s.multipart = false → s.partNum = 0)

/-- What a host that reads every response knows of the session so far. -/
structure HostLog where
  /-- The bytes handed out since the last part begin, `SINIT` or reset. -/
  part : List Byte
  /-- The bytes handed out since the last `SINIT` or reset. -/
  session : List Byte
  /-- The `PEND` commands since then that got past their overflow test. -/
  counted : Nat
  /-- Whether a `PBEGINM` has completed since then. -/
  numbered : Bool
  /-- The number of the part begun last since then. -/
  number : Word
  deriving DecidableEq, Repr

/-- The log at the begin of a session. -/
def HostLog.fresh : HostLog where
  part := []
  session := []
  counted := 0
  numbered := false
  number := 0

/-- The log after the command `i` was answered `r`. -/
def HostLog.answered (i : Instr) (r : RspWord) (h : HostLog) : HostLog :=
  match i with
  | .sinit => .fresh
  | .pbegin => if rspCode r = 0x00 then { h with part := [], number := 0 } else h
  | .pbeginm n => if rspCode r = 0x00 then { h with part := [], number := n, numbered := true } else h
  | .data _ => { h with part := h.part ++ (handedByte r).toList, session := h.session ++ (handedByte r).toList }
  | .pend => if rspCode r ∈ ([0x00, 0x05, 0x06] : List Byte) then { h with counted := h.counted + 1 } else h
  | .cfg _ => h
  | .rdreg _ => h
  | .send => h
  | .ldsizel _ => h
  | .ldsizeh _ => h
  | .ldpcrc _ => h
  | .ldcrc _ => h
  | .chkpart _ => h

/-- The log after a move of the host, `r` being the response to it if there is one. -/
def HostLog.after (m : HostMove) (r : Option RspWord) (h : HostLog) : HostLog :=
  match m, r with
  | .hardReset, _ => .fresh
  | .command _, none => h
  | .command w, some r =>
    match decode w with
    | .cmd i => h.answered i r
    | .illegal _ => h

/-- Items 3 to 6 of R52 and R26's `PART_NUM`: the registers hold what the log says. -/
abbrev Tracks (s : State) (h : HostLog) : Prop :=
  digest s.crcPartRaw = crc32 h.part ∧ s.len.toNat = h.part.length ∧ digest s.crcSessRaw = crc32 h.session ∧
  s.multipart = h.numbered ∧ s.parts.toNat = h.counted ∧ s.partNum = h.number

/-- A row of the opcode map (30_encoding.md R82). -/
structure OpcodeRow where
  mnemonic : String
  pattern : CmdWord
  mask : CmdWord
  deriving DecidableEq, Repr

/-- The opcode map, transcribed from the table of R82. -/
def opcodeMap : List OpcodeRow :=
  [⟨"SINIT", 0x0100000000, 0xFFFFFFFFFF⟩, ⟨"CFG", 0x0200000000, 0xFFFFFFFFFE⟩, ⟨"RDREG", 0x0300000000, 0xFFFFFFFF00⟩,
   ⟨"PBEGIN", 0x1000000000, 0xFFFFFFFFFF⟩, ⟨"PBEGINM", 0x1100000000, 0xFF00000000⟩,
   ⟨"DATA", 0x1200000000, 0xFFFFFFFF00⟩, ⟨"PEND", 0x1300000000, 0xFFFFFFFFFF⟩, ⟨"SEND", 0x1400000000, 0xFFFFFFFFFF⟩,
   ⟨"LDSIZEL", 0x2000000000, 0xFF00000000⟩, ⟨"LDSIZEH", 0x2100000000, 0xFF00000000⟩,
   ⟨"LDPCRC", 0x2200000000, 0xFF00000000⟩, ⟨"LDCRC", 0x2300000000, 0xFF00000000⟩,
   ⟨"CHKPART", 0x2400000000, 0xFF00000000⟩]

/-- "A word `w` spells the command when `(w and mask) == match`, and for `RDREG` also `w[7:0] <= 0x0C`" (R82). -/
def OpcodeRow.spelledBy (row : OpcodeRow) (w : CmdWord) : Bool :=
  w &&& row.mask == row.pattern && (row.mnemonic != "RDREG" || decide ((w.extractLsb' 0 8).toNat ≤ 0x0C))

end Sys2Proof.Machine
end

