-- ==== Sys2Proof/Certificates/Slice0/Obligations.lean ====
section
/-!
DEFINITION. The statements for the provers, from the numbered rules of spec/. Every value is written from the spec's own
words where they give one; `afterOk`, `afterError` and `afterDiscard` (Safety.lean) are the state after a response.
-/

open Sys2Proof Sys2Proof.Machine

/-! ## Encoding -/

/-- Decode and encode agree on every well-formed command (R80 to R83). -/
def Obligations.DecodeOfEncode : Prop := ∀ i : Instr, i.wellFormed = true → decode (encode i) = .cmd i

/-- A word has one meaning: what the decoder reads is well formed and encodes to the same word (R83). -/
def Obligations.EncodeOfDecode : Prop :=
  ∀ (w : CmdWord) (i : Instr), decode w = .cmd i → i.wellFormed = true ∧ encode i = w

/-- R82, R83: a word decodes to a command of a row exactly when the row's match and mask (and for `RDREG` the index
bound) spell it, the opcode is bits 39:32 and the operand bits 31:0, at most one row spells a word, and any other word is illegal. -/
def Obligations.OpcodeMapDecidesTheCommand : Prop :=
  ∀ w : CmdWord,
    (∀ row ∈ opcodeMap, (∃ i, decode w = .cmd i ∧ mnemonicOf i = row.mnemonic) ↔ row.spelledBy w = true) ∧
    (∀ i, decode w = .cmd i → opcodeOf i = w.extractLsb' 32 8 ∧ operandOf i = w.extractLsb' 0 32) ∧
    (opcodeMap.filter fun row => row.spelledBy w).length ≤ 1 ∧
    ((∀ row ∈ opcodeMap, row.spelledBy w = false) → ∃ why, decode w = .illegal why)

/-- R87: the 243 opcodes not in the map are illegal whatever the operand, the all-zero word among them; every other
opcode has a command. -/
def Obligations.ReservedOpcodesAreIllegal : Prop :=
  let reserved : Byte → Bool := fun op =>
    op.toNat == 0 || (4 ≤ op.toNat && op.toNat ≤ 0x0F) || (0x15 ≤ op.toNat && op.toNat ≤ 0x1F) || 0x25 ≤ op.toNat
  (∀ (op : Byte) (arg : Word), reserved op = true → decode (op ++ arg) = .illegal .reservedOpcode) ∧
  (∀ op : Byte, reserved op = false → ∃ arg i, decode (op ++ (arg : Word)) = .cmd i) ∧
  ((List.range 256).filter fun n => reserved (BitVec.ofNat 8 n)).length = 243 ∧
  decode 0x0000000000 = .illegal .reservedOpcode

/-- R88, R210: an operand that breaks its shape makes the word illegal, and an illegal word raises E_ILLEGAL in IDLE,
BODY and DONE (only PHASE and CAUSE are written) and is discarded in FAULT. -/
def Obligations.IllegalEncodingsRaiseOrAreDiscarded : Prop :=
  (∀ (op : Byte) (arg : Word), op ∈ ([0x01, 0x10, 0x13, 0x14] : List Byte) → arg ≠ 0 →
    ∃ why, decode (op ++ arg) = .illegal why) ∧
  (∀ arg : Word, arg.extractLsb' 1 31 ≠ 0 → ∃ why, decode ((0x02 : Byte) ++ arg) = .illegal why) ∧
  (∀ (op : Byte) (arg : Word), op ∈ ([0x03, 0x12] : List Byte) → arg.extractLsb' 8 24 ≠ 0 →
    ∃ why, decode (op ++ arg) = .illegal why) ∧
  (∀ arg : Word, 0x0C < (arg.extractLsb' 0 8).toNat → ∃ why, decode ((0x03 : Byte) ++ arg) = .illegal why) ∧
  (∀ (w : CmdWord) (why : IllegalKind) (s : State), decode w = .illegal why →
    (s.phase ≠ .fault → step (presented w s) = .next (afterError 0x01 s)) ∧
    (s.phase = .fault → step (presented w s) = .next (afterDiscard s)))

/-- Words of 95_test_vectors.md, one or more of every family, decode to the commands they stand for. -/
def Obligations.WrittenWordsDecode : Prop :=
  decode 0x0100000000 = .cmd .sinit ∧ decode 0x0200000001 = .cmd (.cfg true) ∧
  decode 0x030000000A = .cmd (.rdreg 0x0A) ∧ decode 0x1000000000 = .cmd .pbegin ∧
  decode 0x1100000002 = .cmd (.pbeginm 2) ∧ decode 0x1200000072 = .cmd (.data 0x72) ∧
  decode 0x1300000000 = .cmd .pend ∧ decode 0x1400000000 = .cmd .send ∧
  decode 0x2000000005 = .cmd (.ldsizel 5) ∧ decode 0x2100000001 = .cmd (.ldsizeh 1) ∧
  decode 0x22B6C4FA8D = .cmd (.ldpcrc 0xB6C4FA8D) ∧ decode 0x23CBF43926 = .cmd (.ldcrc 0xCBF43926) ∧
  decode 0x24FFFFFFFF = .cmd (.chkpart 0xFFFFFFFF) ∧ decode 0x0200000002 = .illegal .operandBits ∧
  decode 0x030000000D = .illegal .reservedIndex ∧ decode 0x1200000100 = .illegal .operandBits ∧
  decode 0xFF00000000 = .illegal .reservedOpcode

/-! ## The step -/

/-- When the next word on the command port spells a command, the step takes the word off the port and is the command's
meaning on what remains; nothing else surrounds it. -/
def Obligations.StepRunsTheDecodedCommand : Prop :=
  ∀ (s : State) (w : CmdWord) (ms : List HostMove) (i : Instr),
    s.cmdPort = .command w :: ms → decode w = .cmd i → step s = exec i { s with cmdPort := ms }

/-- R90, R91: the whole order of tests, for every word in every phase. In FAULT `SINIT` runs, `RDREG` answers its view
and everything else is discarded; elsewhere an illegal word raises E_ILLEGAL, a command not legal in the phase raises
E_PROTO (`SEND` in BODY: E_TRUNC) and changes nothing else, and a legal one runs: it is none of these answers. -/
def Obligations.DispatchFollowsThePhaseTable : Prop :=
  ∀ (s : State) (w : CmdWord),
    (s.phase = .fault →
      (decode w = .cmd .sinit → step (presented w s) = exec .sinit s) ∧
      (∀ i v, decode w = .cmd (.rdreg i) → regView s.toBlock i = some v → step (presented w s) = .next (afterOk v s)) ∧
      (decode w ≠ .cmd .sinit → (∀ i, decode w ≠ .cmd (.rdreg i)) →
        step (presented w s) = .next (afterDiscard s))) ∧
    (s.phase ≠ .fault →
      (∀ why, decode w = .illegal why → step (presented w s) = .next (afterError 0x01 s)) ∧
      (∀ i, decode w = .cmd i → s.phase ∉ legalPhases i →
        step (presented w s) = .next (afterError (if i = .send ∧ s.phase = .body then 0x03 else 0x02) s)) ∧
      (∀ i, decode w = .cmd i → s.phase ∈ legalPhases i →
        step (presented w s) = exec i s ∧
        ∃ t r, exec i s = .next t ∧ t.rspPort = s.rspPort ++ [r] ∧
          rspCode r ∉ ([0x01, 0x02, 0x03, 0x7F] : List Byte)))

/-- R84, R85: every word is answered by exactly one response; code 0 says that nothing was raised, codes 1 to 9 that
this word put the block into FAULT with that CAUSE, 0x7F that the block was in FAULT and changed nothing; `val` is 0
unless the code is 0. No step on a word stops the machine. -/
def Obligations.EveryWordIsAnsweredOnce : Prop :=
  ∀ (s : State) (w : CmdWord), ∃ t r, step (presented w s) = .next t ∧ t.cmdPort = s.cmdPort ∧
    t.rspPort = s.rspPort ++ [r] ∧ r = rspCode r ++ rspVal r ∧
    ((rspCode r = 0x00 ∧ (t.phase = .fault → s.phase = .fault ∧ t.cause = s.cause)) ∨
     (1 ≤ (rspCode r).toNat ∧ (rspCode r).toNat ≤ 9 ∧ rspVal r = 0 ∧ s.phase ≠ .fault ∧ t.phase = .fault ∧
       t.cause = rspCode r) ∨
     (rspCode r = 0x7F ∧ rspVal r = 0 ∧ s.phase = .fault ∧ t.elements = s.elements))

/-- R262: `n` presented words take exactly `n` steps, none of which stops, and give `n` responses. -/
def Obligations.SessionOfWordsTakesThatManySteps : Prop :=
  ∀ (words : List CmdWord) (rest : List HostMove) (s : State),
    s.cmdPort = words.map .command ++ rest →
    ∃ t rs, runs words.length s = .next t ∧ t.cmdPort = rest ∧
      t.rspPort = s.rspPort ++ rs ∧ rs.length = words.length

/-- With nothing presented the block waits: a step changes nothing. THE MODEL'S CHOICE of how waiting shows as a step
(notes/assumptions/3.md), resting on R250's "The block makes no move of its own: it never acts without a command". -/
def Obligations.BlockWaitsForAMove : Prop := ∀ s : State, s.cmdPort = [] → step s = .next s

/-- R36: the thirteen views together tell all fifteen elements, and what a word does and answers depends on nothing but
the elements. -/
def Obligations.NoHiddenState : Prop :=
  (∀ s t : State, (∀ (i : Byte) (s' t' : State), i.toNat ≤ 0x0C → exec (.rdreg i) s = .next s' →
      exec (.rdreg i) t = .next t' → s'.rspPort.getLast? = t'.rspPort.getLast?) → s.elements = t.elements) ∧
  (∀ (s t s' : State) (w : CmdWord), s.elements = t.elements → step (presented w s) = .next s' →
    ∃ t' r, step (presented w t) = .next t' ∧ t'.elements = s'.elements ∧
      s'.rspPort = s.rspPort ++ [r] ∧ t'.rspPort = t.rspPort ++ [r])

/-! ## Reset, errors, FAULT, phases -/

/-- Hardware reset gives every element its reset value, whatever the state (R50, R240). THE MODEL'S CHOICE, beside what
R50 and R240 say, is what the ports hold then: the moves behind the reset stay, as the host's later moves
(notes/assumptions/1.md), and the list of responses is empty, the pairing being counted anew (notes/assumptions/2.md). -/
def Obligations.HardwareResetValues : Prop :=
  ∀ (s : State) (ms : List HostMove), s.cmdPort = .hardReset :: ms →
    step s = .next {
      sieveEn := true, phase := .idle, cause := 0x00, escPend := false, multipart := false, expPcrcV := false,
      expCrcV := false, crcPartRaw := 0xFFFFFFFF, crcSessRaw := 0xFFFFFFFF, len := 0, parts := 0, partNum := 0,
      expSize := 0, expPcrc := 0x00000000, expCrc := 0x00000000, cmdPort := ms, rspPort := [] }

/-- R51: `SINIT` gives every element its reset value except `SIEVE_EN`, so with `SIEVE_EN` = 1 it gives the state of
hardware reset. -/
def Obligations.SinitIsResetButForTheSieve : Prop :=
  ∀ s t : State, exec .sinit s = .next t →
    t.elements = { State.reset.elements with sieveEn := s.sieveEn } ∧
    (s.sieveEn = true → t.elements = State.reset.elements)

/-- R204: a word that takes the block into FAULT, whatever it is, changes PHASE, CAUSE and the response port and nothing
else, but for the part that `PEND` has counted when its size or CRC check fails. -/
def Obligations.ErrorsArePrecise : Prop :=
  ∀ (w : CmdWord) (s t : State), step (presented w s) = .next t → s.phase ≠ .fault → t.phase = .fault →
    ∃ code : Byte, 1 ≤ code.toNat ∧ code.toNat ≤ 9 ∧
      t = afterError code
        { s with parts := if decode w = .cmd .pend ∧ (code = 0x05 ∨ code = 0x06) then s.parts + 1 else s.parts }

/-- R206: in FAULT a word that is neither exactly 0x0100000000 nor one of 0x0300000000 to 0x030000000C is answered
0x7F00000000 with no effect, and no word but `SINIT` changes an element (R205). -/
def Obligations.FaultFreezesAndDiscards : Prop :=
  ∀ (s : State) (w : CmdWord), s.phase = .fault →
    (w ≠ 0x0100000000 → ¬(0x0300000000 ≤ w.toNat ∧ w.toNat ≤ 0x030000000C) →
      step (presented w s) = .next { s with rspPort := s.rspPort ++ [0x7F00000000] }) ∧
    (∀ t, step (presented w s) = .next t → w ≠ 0x0100000000 → t.elements = s.elements)

/-- R207: only `SINIT` and hardware reset leave FAULT, both do, and both start a session with every element but the
sieve option at its reset value; any other move leaves every element, the standing CAUSE among them. -/
def Obligations.OnlySinitAndResetLeaveFault : Prop :=
  ∀ (s t : State) (m : HostMove) (ms : List HostMove), s.phase = .fault → s.cmdPort = m :: ms → step s = .next t →
    (t.phase ≠ .fault ↔ m = .hardReset ∨ m = .command 0x0100000000) ∧
    (t.phase ≠ .fault → t.elements = { State.reset.elements with
      sieveEn := if m = .hardReset then true else s.sieveEn }) ∧
    (t.phase = .fault → t.elements = s.elements)

/-- R30: the transitions of PHASE and no others, with the phases' values in `STATUS`. -/
def Obligations.PhaseTransitions : Prop :=
  (phaseCode .idle = 0 ∧ phaseCode .body = 1 ∧ phaseCode .done = 2 ∧ phaseCode .fault = 3) ∧
  (∀ (s t : State) (i : Instr), exec i s = .next t →
    t.phase = s.phase ∨
    (s.phase = .idle ∧ (i = .pbegin ∨ ∃ n, i = .pbeginm n) ∧ t.phase = .body) ∨
    (s.phase = .body ∧ i = .pend ∧ t.phase = .idle) ∨ (s.phase = .idle ∧ i = .send ∧ t.phase = .done) ∨
    (s.phase ≠ .fault ∧ t.phase = .fault) ∨ (i = .sinit ∧ t.phase = .idle)) ∧
  (∀ s t : State, s.phase = .idle → (exec .pbegin s = .next t ∨ ∃ n, exec (.pbeginm n) s = .next t) →
    t.phase = .body) ∧
  (∀ s t : State, s.phase = .body → exec .pend s = .next t →
    (t.phase = .idle ↔ s.parts ≠ 0xFFFFFFFF ∧ s.len = s.expSize ∧
      (s.expPcrcV = true → s.crcPartRaw ^^^ 0xFFFFFFFF = s.expPcrc))) ∧
  (∀ s t : State, s.phase = .idle → exec .send s = .next t →
    (t.phase = .done ↔ s.parts ≠ 0 ∧ (s.multipart = false ∨ s.parts = s.partNum → s.expCrcV = true →
      s.crcSessRaw ^^^ 0xFFFFFFFF = s.expCrc))) ∧
  (∀ s t : State, exec .sinit s = .next t → t.phase = .idle) ∧
  (∀ (s t : State) (ms : List HostMove), s.cmdPort = .hardReset :: ms → step s = .next t → t.phase = .idle) ∧
  (∀ (s t : State) (w : CmdWord) (why : IllegalKind), decode w = .illegal why → step (presented w s) = .next t →
    t.phase = .fault)

/-- R47's blank cells: for every element, the only commands that change it; PHASE and CAUSE outside raising. -/
def Obligations.WriteMatrix : Prop :=
  ∀ (i : Instr) (s t : State), exec i s = .next t →
    (mnemonicOf i ∉ ["CFG"] → t.sieveEn = s.sieveEn) ∧
    (t.phase ≠ .fault → mnemonicOf i ∉ ["SINIT", "PBEGIN", "PBEGINM", "PEND", "SEND"] → t.phase = s.phase) ∧
    (t.phase ≠ .fault → mnemonicOf i ∉ ["SINIT"] → t.cause = s.cause) ∧
    (mnemonicOf i ∉ ["SINIT", "PBEGIN", "PBEGINM", "DATA"] → t.escPend = s.escPend) ∧
    (mnemonicOf i ∉ ["SINIT", "PBEGINM"] → t.multipart = s.multipart) ∧
    (mnemonicOf i ∉ ["SINIT", "PBEGIN", "PBEGINM", "DATA"] → t.crcPartRaw = s.crcPartRaw) ∧
    (mnemonicOf i ∉ ["SINIT", "DATA"] → t.crcSessRaw = s.crcSessRaw) ∧
    (mnemonicOf i ∉ ["SINIT", "PBEGIN", "PBEGINM", "DATA"] → t.len = s.len) ∧
    (mnemonicOf i ∉ ["SINIT", "PEND"] → t.parts = s.parts) ∧
    (mnemonicOf i ∉ ["SINIT", "PBEGIN", "PBEGINM"] → t.partNum = s.partNum) ∧
    (mnemonicOf i ∉ ["SINIT", "PBEGIN", "PBEGINM", "LDSIZEL", "LDSIZEH"] → t.expSize = s.expSize) ∧
    (mnemonicOf i ∉ ["SINIT", "PBEGIN", "PBEGINM", "LDPCRC"] → t.expPcrc = s.expPcrc ∧ t.expPcrcV = s.expPcrcV) ∧
    (mnemonicOf i ∉ ["SINIT", "LDCRC"] → t.expCrc = s.expCrc ∧ t.expCrcV = s.expCrcV) ∧
    t.cmdPort = s.cmdPort

/-! ## Session and configuration commands -/

/-- R110: `SINIT` in every phase, FAULT included, and its malformed words. -/
def Obligations.SinitBeginsASession : Prop :=
  decode 0x0100000000 = .cmd .sinit ∧
  ∀ s : State,
    exec .sinit s = .next {
      sieveEn := s.sieveEn, phase := .idle, cause := 0x00, escPend := false, multipart := false, expPcrcV := false,
      expPcrc := 0x00000000, expCrcV := false, expCrc := 0x00000000, crcPartRaw := 0xFFFFFFFF,
      crcSessRaw := 0xFFFFFFFF, len := 0, parts := 0, partNum := 0, expSize := 0,
      cmdPort := s.cmdPort, rspPort := s.rspPort ++ [0x0000000000] } ∧
    ∀ arg : Word, arg ≠ 0 →
      step (presented ((0x01 : Byte) ++ arg) s) =
        .next (if s.phase = .fault then afterDiscard s else afterError 0x01 s)

/-- R111: `CFG` writes the sieve option in IDLE, raises E_PROTO in BODY and DONE, is discarded in FAULT; its words. -/
def Obligations.CfgSetsTheSieveOption : Prop :=
  decode 0x0200000000 = .cmd (.cfg false) ∧ decode 0x0200000001 = .cmd (.cfg true) ∧
  ∀ (s : State) (f : Bool),
    (s.phase = .idle → exec (.cfg f) s = .next (afterOk 0x00000000 { s with sieveEn := f })) ∧
    (s.phase = .body ∨ s.phase = .done → exec (.cfg f) s = .next (afterError 0x02 s)) ∧
    (s.phase = .fault → exec (.cfg f) s = .next (afterDiscard s)) ∧
    ∀ arg : Word, arg.extractLsb' 1 31 ≠ 0 →
      step (presented ((0x02 : Byte) ++ arg) s) =
        .next (if s.phase = .fault then afterDiscard s else afterError 0x01 s)

/-- R45, R46, R112: `RDREG` answers each of the thirteen views in every phase and changes no element; a reserved index
or a nonzero bit of arg[31:8] is an illegal encoding. -/
def Obligations.RdregAnswersTheView : Prop :=
  ∀ s : State,
    (∀ (i : Byte) (v : Word),
      (i, v) ∈ ([
        (0x00, if s.sieveEn then 1 else 0),
        (0x01, BitVec.ofNat 32 ((match s.phase with | .idle => 0 | .body => 1 | .done => 2 | .fault => 3)
          + (if s.escPend then 4 else 0) + (if s.multipart then 8 else 0) + (if s.expPcrcV then 16 else 0)
          + (if s.expCrcV then 32 else 0))),
        (0x02, BitVec.ofNat 32 s.cause.toNat),
        (0x03, s.partNum),
        (0x04, s.parts),
        (0x05, BitVec.ofNat 32 (s.len.toNat % 2 ^ 32)),
        (0x06, BitVec.ofNat 32 (s.len.toNat / 2 ^ 32)),
        (0x07, BitVec.ofNat 32 (s.expSize.toNat % 2 ^ 32)),
        (0x08, BitVec.ofNat 32 (s.expSize.toNat / 2 ^ 32)),
        (0x09, s.crcPartRaw ^^^ 0xFFFFFFFF),
        (0x0A, s.crcSessRaw ^^^ 0xFFFFFFFF),
        (0x0B, s.expPcrc),
        (0x0C, s.expCrc)] : List (Byte × Word)) →
      decode (0x0300000000 + i.setWidth 40) = .cmd (.rdreg i) ∧ exec (.rdreg i) s = .next (afterOk v s)) ∧
    (∀ arg : Word, 0x0C < arg.toNat →
      step (presented ((0x03 : Byte) ++ arg) s) =
        .next (if s.phase = .fault then afterDiscard s else afterError 0x01 s))

/-! ## Opening a part -/

/-- R130: `PBEGIN` in IDLE opens a fresh part with number 0 and leaves the session's elements; E_PROTO in BODY and DONE,
discarded in FAULT; its words. -/
def Obligations.PbeginOpensAFreshPart : Prop :=
  decode 0x1000000000 = .cmd .pbegin ∧
  ∀ s : State,
    (s.phase = .idle → exec .pbegin s = .next (afterOk 0x00000000 { s with
      partNum := 0, escPend := false, crcPartRaw := 0xFFFFFFFF, len := 0, expSize := 0, expPcrc := 0x00000000,
      expPcrcV := false, phase := .body })) ∧
    (s.phase = .body ∨ s.phase = .done → exec .pbegin s = .next (afterError 0x02 s)) ∧
    (s.phase = .fault → exec .pbegin s = .next (afterDiscard s)) ∧
    ∀ arg : Word, arg ≠ 0 →
      step (presented ((0x10 : Byte) ++ arg) s) =
        .next (if s.phase = .fault then afterDiscard s else afterError 0x01 s)

/-- R131: `PBEGINM n`, for every `n`, differs from `PBEGIN` in the number and in setting MULTIPART. -/
def Obligations.PbeginmOpensANumberedPart : Prop :=
  ∀ (n : Word) (s : State),
    decode ((0x11 : Byte) ++ n) = .cmd (.pbeginm n) ∧
    (s.phase = .idle → exec (.pbeginm n) s = .next (afterOk 0x00000000 { s with
      partNum := n, multipart := true, escPend := false, crcPartRaw := 0xFFFFFFFF, len := 0, expSize := 0,
      expPcrc := 0x00000000, expPcrcV := false, phase := .body })) ∧
    (s.phase = .body ∨ s.phase = .done → exec (.pbeginm n) s = .next (afterError 0x02 s)) ∧
    (s.phase = .fault → exec (.pbeginm n) s = .next (afterDiscard s))

/-! ## DATA, the sieve and the CRC -/

/-- R140, R141, R145: `DATA b` for every byte in every case of the sieve, the overflow test before any write, the phases
and the words. -/
def Obligations.DataSievesCountsAndFeeds : Prop :=
  ∀ (b : Byte) (s : State),
    let emits : Byte → Bool → State := fun v p => afterOk (BitVec.ofNat 32 (0x100 + v.toNat)) { s with
      escPend := p, crcPartRaw := crcStep s.crcPartRaw v, crcSessRaw := crcStep s.crcSessRaw v, len := s.len + 1 }
    decode (0x1200000000 + b.setWidth 40) = .cmd (.data b) ∧
    (s.phase = .body → s.len ≠ 0xFFFFFFFFFFFFFFFF → s.sieveEn = false →
      exec (.data b) s = .next (emits b s.escPend)) ∧
    (s.phase = .body → s.len ≠ 0xFFFFFFFFFFFFFFFF → s.sieveEn = true → s.escPend = true →
      exec (.data b) s = .next (emits (BitVec.ofNat 8 (((b.toNat + 256 - 42) % 256 + 256 - 64) % 256)) false)) ∧
    (s.phase = .body → s.sieveEn = true → s.escPend = false → b = 0x3D →
      exec (.data b) s = .next (afterOk 0x00000000 { s with escPend := true })) ∧
    (s.phase = .body → s.len ≠ 0xFFFFFFFFFFFFFFFF → s.sieveEn = true → s.escPend = false → b ≠ 0x3D →
      exec (.data b) s = .next (emits (BitVec.ofNat 8 ((b.toNat + 256 - 42) % 256)) false)) ∧
    (s.phase = .body → s.len = 0xFFFFFFFFFFFFFFFF → ¬(s.sieveEn = true ∧ s.escPend = false ∧ b = 0x3D) →
      exec (.data b) s = .next (afterError 0x09 s)) ∧
    (s.phase = .idle ∨ s.phase = .done → exec (.data b) s = .next (afterError 0x02 s)) ∧
    (s.phase = .fault → exec (.data b) s = .next (afterDiscard s)) ∧
    ∀ arg : Word, arg.extractLsb' 8 24 ≠ 0 →
      step (presented ((0x12 : Byte) ++ arg) s) =
        .next (if s.phase = .fault then afterDiscard s else afterError 0x01 s)

/-- R143: the closed forms of the two byte maps, and that both are bijections of the 256 bytes. -/
def Obligations.SieveClosedForms : Prop :=
  (∀ b : Byte, (plainByte b).toNat = (b.toNat + 214) % 256 ∧ (escapedByte b).toNat = (b.toNat + 150) % 256 ∧
    (plainByte b).toNat = (if 42 ≤ b.toNat then b.toNat - 42 else b.toNat + 214) ∧
    (escapedByte b).toNat = (if 106 ≤ b.toNat then b.toNat - 106 else b.toNat + 150) ∧
    escapedByte b = b - 106) ∧
  Function.Bijective plainByte ∧ Function.Bijective escapedByte

/-- A run of `DATA` commands is the sieve: for every byte sequence, the handed-out bytes are the sieve's output, both CRC
registers fold over them, `LEN` counts them, and `ESC_PEND` is carried from byte to byte. -/
def Obligations.DataRunIsTheSieve : Prop :=
  ∀ (bytes : List Byte) (rest : List HostMove) (s : State),
    s.phase = .body → s.len.toNat + (sieveAll s.sieveEn s.escPend bytes).1.length < 2 ^ 64 →
    s.cmdPort = bytes.map (fun b => .command (dataWord b)) ++ rest →
    ∃ rs, rs.length = bytes.length ∧ rs.filterMap handedByte = (sieveAll s.sieveEn s.escPend bytes).1 ∧
      runs bytes.length s = .next { s with
        escPend := (sieveAll s.sieveEn s.escPend bytes).2
        crcPartRaw := crcFold s.crcPartRaw (sieveAll s.sieveEn s.escPend bytes).1
        crcSessRaw := crcFold s.crcSessRaw (sieveAll s.sieveEn s.escPend bytes).1
        len := BitVec.ofNat 64 (s.len.toNat + (sieveAll s.sieveEn s.escPend bytes).1.length)
        cmdPort := rest
        rspPort := s.rspPort ++ rs }

/-- R150: for every escape set that holds 0x3D and every byte sequence, feeding its encoding as `DATA` commands to a
block in BODY with the sieve on and no escape pending hands out exactly that sequence, in order, and ends with
`ESC_PEND` = 0. (`LEN` must have room for it: R145.) -/
def Obligations.EncodedBytesRoundTrip : Prop :=
  ∀ (escaped bytes : List Byte) (rest : List HostMove) (s : State),
    0x3D ∈ escaped → s.phase = .body → s.sieveEn = true → s.escPend = false →
    s.len.toNat + bytes.length < 2 ^ 64 →
    s.cmdPort = (encodeBytes escaped bytes).map (fun b => .command (dataWord b)) ++ rest →
    ∃ t rs, runs (encodeBytes escaped bytes).length s = .next t ∧
      t.rspPort = s.rspPort ++ rs ∧ rs.filterMap handedByte = bytes ∧ t.escPend = false ∧ t.phase = .body ∧
      t.cmdPort = rest

/-- R151: the emitted bytes are as many as the input bytes less those that took case 2, and with the sieve off none
did. -/
def Obligations.OutputLength : Prop :=
  ∀ (en esc : Bool) (bytes : List Byte),
    (sieveAll en esc bytes).1.length + markersIn en esc bytes = bytes.length ∧
    (en = false → (sieveAll en esc bytes).1.length = bytes.length)

/-- R146 on the block: "an escape marker at the very end of a line carries over to the first byte of the next line". In
BODY with the sieve on, a line that ends in a bare escape marker leaves `ESC_PEND` set with nothing emitted for the
marker; the next line, whose first byte is `b`, emits `(b - 106) mod 256` and then what the sieve gives of its rest. -/
def Obligations.LinesJoinUnderTheSieve : Prop :=
  ∀ (before after : List Byte) (b : Byte) (rest : List HostMove) (s : State),
    s.phase = .body → s.sieveEn = true → (sieveAll true s.escPend before).2 = false →
    s.len.toNat + before.length + 1 + after.length < 2 ^ 64 →
    s.cmdPort = (before ++ [0x3D]).map (fun c => .command (dataWord c)) ++
      ((b :: after).map (fun c => .command (dataWord c)) ++ rest) →
    ∃ s₁ t r₁ r₂, runs (before.length + 1) s = .next s₁ ∧ s₁.escPend = true ∧
      s₁.rspPort = s.rspPort ++ r₁ ∧ r₁.filterMap handedByte = (sieveAll true s.escPend before).1 ∧
      runs (after.length + 1) s₁ = .next t ∧ t.cmdPort = rest ∧ t.rspPort = s₁.rspPort ++ r₂ ∧
      r₂.filterMap handedByte =
        BitVec.ofNat 8 ((b.toNat + 256 - 106) % 256) :: (sieveAll true false after).1

/-- The values of 95_test_vectors.md B3.7 and B3.9, R142's worked step and R8's check value. -/
def Obligations.CrcCheckValues : Prop :=
  crcStep 0xFFFFFFFF 0x48 = 0x55FAD9D0 ∧ crcStep 0xFFFFFFFF 0x00 = 0x2DFD1072 ∧ crcStep 0x00000000 0x01 = 0x77073096 ∧
  crcStep 0x00000000 0x80 = 0xEDB88320 ∧ crc32 [] = 0x00000000 ∧
  crc32 [0x31, 0x32, 0x33, 0x34, 0x35, 0x36, 0x37, 0x38, 0x39] = 0xCBF43926

/-- The table form of the CRC step (R142 allows "a 256-entry table"): one shift by a byte and the step of the byte that
the shift drops. -/
def Obligations.CrcStepIsTheTableStep : Prop :=
  ∀ (r : Word) (v : Byte), crcStep r v = (r >>> 8) ^^^ crcStep 0 (r.extractLsb' 0 8 ^^^ v)

/-- R8's two forms of the polynomial agree: a round is multiplication by x modulo the generator 0x04C11DB7 on the
bit-reversed remainder. -/
def Obligations.CrcRoundIsPolynomialDivision : Prop :=
  ∀ r : Word, (crcRound r).reverse = (r.reverse <<< 1) ^^^ (if r.reverse.msb then 0x04C11DB7 else 0)

/-! ## Trailer values -/

/-- R160, R161: the two halves of the expected size, each leaving the other; phases and words. -/
def Obligations.SizeHalvesLoad : Prop :=
  ∀ (w : Word) (s : State),
    decode ((0x20 : Byte) ++ w) = .cmd (.ldsizel w) ∧ decode ((0x21 : Byte) ++ w) = .cmd (.ldsizeh w) ∧
    (s.phase = .body → exec (.ldsizel w) s = .next (afterOk 0x00000000 { s with
      expSize := BitVec.ofNat 64 (s.expSize.toNat / 2 ^ 32 * 2 ^ 32 + w.toNat) })) ∧
    (s.phase = .body → exec (.ldsizeh w) s = .next (afterOk 0x00000000 { s with
      expSize := BitVec.ofNat 64 (w.toNat * 2 ^ 32 + s.expSize.toNat % 2 ^ 32) })) ∧
    ∀ i ∈ [Instr.ldsizel w, .ldsizeh w],
      (s.phase = .idle ∨ s.phase = .done → exec i s = .next (afterError 0x02 s)) ∧
      (s.phase = .fault → exec i s = .next (afterDiscard s))

/-- R162, R163: the expected CRCs and their flags; phases and words. -/
def Obligations.ExpectedCrcsLoad : Prop :=
  ∀ (w : Word) (s : State),
    decode ((0x22 : Byte) ++ w) = .cmd (.ldpcrc w) ∧ decode ((0x23 : Byte) ++ w) = .cmd (.ldcrc w) ∧
    (s.phase = .body →
      exec (.ldpcrc w) s = .next (afterOk 0x00000000 { s with expPcrc := w, expPcrcV := true })) ∧
    (s.phase = .body →
      exec (.ldcrc w) s = .next (afterOk 0x00000000 { s with expCrc := w, expCrcV := true })) ∧
    ∀ i ∈ [Instr.ldpcrc w, .ldcrc w],
      (s.phase = .idle ∨ s.phase = .done → exec i s = .next (afterError 0x02 s)) ∧
      (s.phase = .fault → exec i s = .next (afterDiscard s))

/-- R164: `CHKPART n` passes with nothing written when `n` is the part's number and raises E_PART_ORDER otherwise; the
phases and words. -/
def Obligations.ChkpartComparesTheNumber : Prop :=
  ∀ (n : Word) (s : State),
    decode ((0x24 : Byte) ++ n) = .cmd (.chkpart n) ∧
    (s.phase = .body → n = s.partNum → exec (.chkpart n) s = .next (afterOk 0x00000000 s)) ∧
    (s.phase = .body → n ≠ s.partNum → exec (.chkpart n) s = .next (afterError 0x04 s)) ∧
    (s.phase = .idle ∨ s.phase = .done → exec (.chkpart n) s = .next (afterError 0x02 s)) ∧
    (s.phase = .fault → exec (.chkpart n) s = .next (afterDiscard s))

/-- R165: in BODY the last value of a repeated load stands, two different loads may come in either order, and a load and a `DATA` (that has room in `LEN`) may come in
either order. -/
def Obligations.LoadsRepeatAndInterleave : Prop :=
  ∀ s : State, s.phase = .body →
    (∀ load ∈ [Instr.ldsizel, .ldsizeh, .ldpcrc, .ldcrc], ∀ first last : Word, ∃ s₁ t u,
      exec (load first) s = .next s₁ ∧ exec (load last) s₁ = .next t ∧ exec (load last) s = .next u ∧
      t.elements = u.elements) ∧
    (∀ load ∈ [Instr.ldsizel, .ldsizeh, .ldpcrc, .ldcrc], ∀ other ∈ [Instr.ldsizel, .ldsizeh, .ldpcrc, .ldcrc],
      ∀ v w : Word, mnemonicOf (load v) ≠ mnemonicOf (other w) → ∃ s₁ s₂ t u,
        exec (load v) s = .next s₁ ∧ exec (other w) s₁ = .next t ∧
        exec (other w) s = .next s₂ ∧ exec (load v) s₂ = .next u ∧ t.elements = u.elements) ∧
    (∀ load ∈ [Instr.ldsizel, .ldsizeh, .ldpcrc, .ldcrc], ∀ (w : Word) (b : Byte), s.len ≠ 0xFFFFFFFFFFFFFFFF →
      ∃ s₁ s₂ t u, exec (load w) s = .next s₁ ∧ exec (.data b) s₁ = .next t ∧
        exec (.data b) s = .next s₂ ∧ exec (load w) s₂ = .next u ∧ t.elements = u.elements)

/-- The pseudo-instruction `LDSIZE v` replaces the whole expected size (R93). -/
def Obligations.LdsizeReplacesTheWholeSize : Prop :=
  ∀ (v : DWord) (s : State) (rest : List HostMove), s.phase = .body →
    s.cmdPort = (ldsizeCommands v).map (fun i => .command (encode i)) ++ rest →
    runs 2 s =
      .next { s with expSize := v, cmdPort := rest, rspPort := s.rspPort ++ [0x0000000000, 0x0000000000] }

/-! ## Validation -/

/-- R181: every outcome of `PEND`, in the order of its steps; the count of step 2 stays when step 3 or 4 raises; phases
and words. -/
def Obligations.PendCountsAndValidates : Prop :=
  decode 0x1300000000 = .cmd .pend ∧
  ∀ s : State,
    let counted : State := { s with parts := s.parts + 1 }
    let crcWrong : Prop := s.expPcrcV = true ∧ s.crcPartRaw ^^^ 0xFFFFFFFF ≠ s.expPcrc
    (s.phase = .body → s.parts = 0xFFFFFFFF → exec .pend s = .next (afterError 0x09 s)) ∧
    (s.phase = .body → s.parts ≠ 0xFFFFFFFF → s.len ≠ s.expSize →
      exec .pend s = .next (afterError 0x05 counted)) ∧
    (s.phase = .body → s.parts ≠ 0xFFFFFFFF → s.len = s.expSize → crcWrong →
      exec .pend s = .next (afterError 0x06 counted)) ∧
    (s.phase = .body → s.parts ≠ 0xFFFFFFFF → s.len = s.expSize → ¬crcWrong →
      exec .pend s = .next (afterOk (if s.expPcrcV then 1 else 0) { counted with phase := .idle })) ∧
    (s.phase = .idle ∨ s.phase = .done → exec .pend s = .next (afterError 0x02 s)) ∧
    (s.phase = .fault → exec .pend s = .next (afterDiscard s)) ∧
    ∀ arg : Word, arg ≠ 0 →
      step (presented ((0x13 : Byte) ++ arg) s) =
        .next (if s.phase = .fault then afterDiscard s else afterError 0x01 s)

/-- R182: every outcome of `SEND`, in the order of its steps, with the gate of R183; phases and words. -/
def Obligations.SendValidatesTheSession : Prop :=
  decode 0x1400000000 = .cmd .send ∧
  ∀ s : State,
    let gate : Prop := s.multipart = false ∨ s.parts = s.partNum
    let same : Prop := s.crcSessRaw ^^^ 0xFFFFFFFF = s.expCrc
    (s.phase = .body → exec .send s = .next (afterError 0x03 s)) ∧
    (s.phase = .idle → s.parts = 0 → exec .send s = .next (afterError 0x07 s)) ∧
    (s.phase = .idle → s.parts ≠ 0 → gate → s.expCrcV = true → ¬same →
      exec .send s = .next (afterError 0x08 s)) ∧
    (s.phase = .idle → s.parts ≠ 0 → gate → s.expCrcV = true → same →
      exec .send s = .next (afterOk 1 { s with phase := .done })) ∧
    (s.phase = .idle → s.parts ≠ 0 → ¬(gate ∧ s.expCrcV = true) →
      exec .send s = .next (afterOk 0 { s with phase := .done })) ∧
    (s.phase = .done → exec .send s = .next (afterError 0x02 s)) ∧
    (s.phase = .fault → exec .send s = .next (afterDiscard s)) ∧
    ∀ arg : Word, arg ≠ 0 →
      step (presented ((0x14 : Byte) ++ arg) s) =
        .next (if s.phase = .fault then afterDiscard s else afterError 0x01 s)

/-- R218: E_OVERFLOW leaves the counter unchanged, for `DATA` about to emit and for `PEND`. -/
def Obligations.OverflowKeepsTheCounter : Prop :=
  (∀ (b : Byte) (s : State), s.phase = .body → s.len.toNat = 2 ^ 64 - 1 →
    (sieve s.sieveEn s.escPend b).1.isSome = true → exec (.data b) s = .next (afterError 0x09 s)) ∧
  (∀ s : State, s.phase = .body → s.parts.toNat = 2 ^ 32 - 1 → exec .pend s = .next (afterError 0x09 s))

/-- The counters never wrap: outside part begin and `SINIT`, no command makes `LEN` or `PARTS` smaller, and each grows by
at most one (R10, R23, R25). -/
def Obligations.CountersNeverWrap : Prop :=
  ∀ (i : Instr) (s t : State), exec i s = .next t →
    (mnemonicOf i ∉ ["SINIT", "PBEGIN", "PBEGINM"] →
      t.len.toNat = s.len.toNat ∨ (mnemonicOf i = "DATA" ∧ t.len.toNat = s.len.toNat + 1)) ∧
    (i ≠ .sinit → t.parts.toNat = s.parts.toNat ∨ (i = .pend ∧ t.parts.toNat = s.parts.toNat + 1))

/-- After `PEND` passes, the part's length is the expected size, its CRC is the expected one if one was set, and the
finished part's values are still there to be read (R181). -/
def Obligations.PassedPartIsValid : Prop :=
  ∀ s t : State, exec .pend s = .next t → t.phase = .idle →
    t.len = t.expSize ∧ (t.expPcrcV = true → t.crcPartRaw ^^^ 0xFFFFFFFF = t.expPcrc) ∧
    t.parts.toNat = s.parts.toNat + 1 ∧
    t = { s with phase := .idle, parts := t.parts, rspPort := t.rspPort }

/-- A session that reaches DONE was ended by `SEND` with at least one counted part, and its CRC was the expected one if
the check ran (R182, R205). -/
def Obligations.SuccessMeansValidated : Prop :=
  ∀ (i : Instr) (s t : State), exec i s = .next t → t.phase = .done → s.phase ≠ .done →
    i = .send ∧ s.phase = .idle ∧ 1 ≤ t.parts.toNat ∧
    (t.expCrcV = true → t.multipart = false ∨ t.parts = t.partNum → t.crcSessRaw ^^^ 0xFFFFFFFF = t.expCrc)

/-! ## Invariants -/

/-- R52 items 1, 2 and 7 and the range of CAUSE hold at reset. -/
def Obligations.SessionInvAtReset : Prop := SessionInv State.reset

/-- R52 items 1, 2 and 7 and the range of CAUSE are kept by every step, from every state that has them. -/
def Obligations.StepKeepsSessionInv : Prop := ∀ s t : State, SessionInv s → step s = .next t → SessionInv t

/-- The reset state agrees with a host's fresh log. -/
def Obligations.FreshLogTracksReset : Prop := Tracks State.reset HostLog.fresh

/-- R52 items 3 to 6 (and R26's number): if the registers agree with the log a host keeps of the responses, they agree
after every step with the log after it. -/
def Obligations.RegistersTrackTheHostLog : Prop :=
  ∀ (s t : State) (h : HostLog) (m : HostMove) (ms : List HostMove),
    Tracks s h → s.cmdPort = m :: ms → step s = .next t → Tracks t (h.after m t.rspPort.getLast?)

/-- What is not set reads as zero: it holds at reset and every step keeps it. -/
def Obligations.UnsetValuesReadZero : Prop :=
  UnsetReadsZero State.reset ∧ ∀ s t : State, UnsetReadsZero s → step s = .next t → UnsetReadsZero t

/-! ## The block and its ports -/

/-- R50: the machine's reset state has every element at its reset value, and a hardware reset from any state gives the
same elements. -/
def Obligations.ResetStateHasTheResetValues : Prop :=
  State.reset.elements = {
    sieveEn := true, phase := .idle, cause := 0x00, escPend := false, multipart := false, expPcrcV := false,
    expCrcV := false, crcPartRaw := 0xFFFFFFFF, crcSessRaw := 0xFFFFFFFF, len := 0, parts := 0, partNum := 0,
    expSize := 0, expPcrc := 0x00000000, expCrc := 0x00000000 } ∧
  ∀ (s : State) (ms : List HostMove), s.cmdPort = .hardReset :: ms →
    ∃ t, step s = .next t ∧ t.elements = State.reset.elements

/-- R6, R13, R35: a command is one total function of the block's elements and the word, which gives the elements after it
and the response; neither the rest of the command sequence nor the responses given before enter it. -/
def Obligations.CommandIsAFunctionOfTheBlock : Prop :=
  ∃ f : Block → CmdWord → Block × RspWord, ∀ (s : State) (w : CmdWord),
    step (presented w s) = .next {
      toBlock := (f s.toBlock w).1, cmdPort := s.cmdPort, rspPort := s.rspPort ++ [(f s.toBlock w).2] }
end

