-- ==== Sys2Proof/Laws/Crc.lean ====
section
/-!
SUPPORT. The CRC step is linear over exclusive or, and folds over a concatenation.
-/

namespace Sys2Proof.Machine

theorem crcRound_xor (a b : Word) : crcRound (a ^^^ b) = crcRound a ^^^ crcRound b := by
  simp only [crcRound, BitVec.getLsbD_xor, BitVec.ushiftRight_xor_distrib]
  cases a.getLsbD 0 <;> cases b.getLsbD 0 <;> simp
  · ac_rfl
  · ac_rfl
  · rw [show a >>> 1 ^^^ Config.pCrcPolyR ^^^ (b >>> 1 ^^^ Config.pCrcPolyR)
      = a >>> 1 ^^^ b >>> 1 ^^^ (Config.pCrcPolyR ^^^ Config.pCrcPolyR) by ac_rfl]
    simp

theorem crcRounds_xor (n : Nat) (a b : Word) : crcRounds n (a ^^^ b) = crcRounds n a ^^^ crcRounds n b := by
  induction n generalizing a b with
  | zero => rfl
  | succ k ih => simp [crcRounds, crcRound_xor, ih]

@[simp] theorem crcFold_nil (r : Word) : crcFold r [] = r := rfl

@[simp] theorem crcFold_cons (r : Word) (b : Byte) (bs : List Byte) :
    crcFold r (b :: bs) = crcFold (crcStep r b) bs := rfl

theorem crcFold_append (r : Word) (as bs : List Byte) : crcFold r (as ++ bs) = crcFold (crcFold r as) bs := by
  simp [crcFold]

@[simp] theorem digest_digest (r : Word) : digest (digest r) = r := by
  simp [digest]

end Sys2Proof.Machine
end

