-- ==== Sys2Proof/Laws/Words.lean ====
section
/-!
SUPPORT. The fields of command and response words, and the halves of 64-bit elements.
-/

namespace Sys2Proof.Machine

/-- The bits of a 40-bit word made of two fields; also for words written with `++` in statements. -/
theorem getLsbD_append40 (a : Byte) (b : Word) (i : Nat) :
    BitVec.getLsbD (w := 40) (a ++ b) i = if i < 32 then b.getLsbD i else a.getLsbD (i - 32) :=
  BitVec.getLsbD_append

/-- The bits of a 64-bit element made of two halves. -/
theorem getLsbD_append64 (a b : Word) (i : Nat) :
    BitVec.getLsbD (w := 64) (a ++ b) i = if i < 32 then b.getLsbD i else a.getLsbD (i - 32) :=
  BitVec.getLsbD_append

/-- Bits 39:32 of `{a, b}`. -/
theorem append40_high (a : Byte) (b : Word) : BitVec.extractLsb' (n := 40) 32 8 (a ++ b) = a := by
  refine BitVec.eq_of_getLsbD_eq fun i hi => ?_
  simp [hi, getLsbD_append40]

/-- Bits 31:0 of `{a, b}`. -/
theorem append40_low (a : Byte) (b : Word) : BitVec.extractLsb' (n := 40) 0 32 (a ++ b) = b := by
  refine BitVec.eq_of_getLsbD_eq fun i hi => ?_
  simp [hi, getLsbD_append40]

/-- A 40-bit word is its two fields. -/
theorem append40_fields (w : BitVec 40) : (w.extractLsb' 32 8 ++ w.extractLsb' 0 32 : BitVec 40) = w := by
  refine BitVec.eq_of_getLsbD_eq fun i hi => ?_
  rw [getLsbD_append40]
  split
  · simp [*]
  · simp [show i - 32 < 8 by omega, show 32 + (i - 32) = i by omega]

@[simp] theorem opField_cmdWord (op : Byte) (arg : Word) : opField (cmdWord op arg) = op := append40_high op arg

@[simp] theorem argField_cmdWord (op : Byte) (arg : Word) : argField (cmdWord op arg) = arg := append40_low op arg

theorem cmdWord_fields (w : CmdWord) : cmdWord (opField w) (argField w) = w := append40_fields w

theorem decode_cmdWord (op : Byte) (arg : Word) : decode (cmdWord op arg) = decodeFields op arg := by
  simp [decode]

@[simp] theorem rspCode_rspWord (code : Byte) (val : Word) : rspCode (rspWord code val) = code :=
  append40_high code val

@[simp] theorem rspVal_rspWord (code : Byte) (val : Word) : rspVal (rspWord code val) = val := append40_low code val

/-- Masking a word field by field. -/
theorem cmdWord_and (op op' : Byte) (arg arg' : Word) :
    cmdWord op arg &&& cmdWord op' arg' = cmdWord (op &&& op') (arg &&& arg') := BitVec.and_append

@[simp] theorem lowHalf_withLowHalf (v : DWord) (w : Word) : lowHalf (withLowHalf v w) = w := by
  refine BitVec.eq_of_getLsbD_eq fun i hi => ?_
  simp [lowHalf, withLowHalf, getLsbD_append64, hi]

@[simp] theorem highHalf_withLowHalf (v : DWord) (w : Word) : highHalf (withLowHalf v w) = highHalf v := by
  refine BitVec.eq_of_getLsbD_eq fun i hi => ?_
  simp [highHalf, withLowHalf, getLsbD_append64, hi]

@[simp] theorem lowHalf_withHighHalf (v : DWord) (w : Word) : lowHalf (withHighHalf v w) = lowHalf v := by
  refine BitVec.eq_of_getLsbD_eq fun i hi => ?_
  simp [lowHalf, withHighHalf, getLsbD_append64, hi]

@[simp] theorem highHalf_withHighHalf (v : DWord) (w : Word) : highHalf (withHighHalf v w) = w := by
  refine BitVec.eq_of_getLsbD_eq fun i hi => ?_
  simp [highHalf, withHighHalf, getLsbD_append64, hi]

/-- A byte operand stands in bits 7:0 with zeros above (R81, shapes R and B). -/
theorem byteOperand_low (b : Byte) : (b.setWidth 32).extractLsb' 0 8 = b := by
  refine BitVec.eq_of_getLsbD_eq fun i hi => ?_
  simp [hi, show i < 32 by omega]

theorem byteOperand_high (b : Byte) : (b.setWidth 32).extractLsb' 8 24 = 0 := by
  refine BitVec.eq_of_getLsbD_eq fun i hi => ?_
  simp [hi]

theorem spelledBy_iff (row : OpcodeRow) (w : CmdWord) : row.spelledBy w = true ↔
    w &&& row.mask = row.pattern ∧ (row.mnemonic = "RDREG" → (w.extractLsb' 0 8).toNat ≤ 0x0C) := by
  simp only [OpcodeRow.spelledBy, Bool.and_eq_true, beq_iff_eq, Bool.or_eq_true, bne_iff_ne, decide_eq_true_eq]
  constructor
  · rintro ⟨h, h'⟩
    exact ⟨h, fun hn => h'.resolve_left (not_not_intro hn)⟩
  · rintro ⟨h, h'⟩
    exact ⟨h, (Classical.em (row.mnemonic = "RDREG")).elim (fun hn => .inr (h' hn)) .inl⟩

end Sys2Proof.Machine
end

