-- ==== Sys2Proof/Laws/Decode.lean ====
section
/-!
SUPPORT. Everything the decoder can do with a word, said once, and each shape's inversion.
-/

namespace Sys2Proof.Machine

/-- The legal opcodes (R82). -/
abbrev legalOpcodes : List Byte :=
  [0x01, 0x02, 0x03, 0x10, 0x11, 0x12, 0x13, 0x14, 0x20, 0x21, 0x22, 0x23, 0x24]

/-- Everything `decodeFields` can do (R81 to R83, R87): one case per opcode of the map, and the reserved opcodes. -/
theorem decodeFields_cases (op : Byte) (arg : Word) :
    (op = 0x01 ∧ decodeFields op arg = shapeN .sinit arg) ∨
    (op = 0x02 ∧ decodeFields op arg = shapeF .cfg arg) ∨
    (op = 0x03 ∧ decodeFields op arg = shapeR .rdreg arg) ∨
    (op = 0x10 ∧ decodeFields op arg = shapeN .pbegin arg) ∨
    (op = 0x11 ∧ decodeFields op arg = shapeW .pbeginm arg) ∨
    (op = 0x12 ∧ decodeFields op arg = shapeB .data arg) ∨
    (op = 0x13 ∧ decodeFields op arg = shapeN .pend arg) ∨
    (op = 0x14 ∧ decodeFields op arg = shapeN .send arg) ∨
    (op = 0x20 ∧ decodeFields op arg = shapeW .ldsizel arg) ∨
    (op = 0x21 ∧ decodeFields op arg = shapeW .ldsizeh arg) ∨
    (op = 0x22 ∧ decodeFields op arg = shapeW .ldpcrc arg) ∨
    (op = 0x23 ∧ decodeFields op arg = shapeW .ldcrc arg) ∨
    (op = 0x24 ∧ decodeFields op arg = shapeW .chkpart arg) ∨
    (op ∉ legalOpcodes ∧ decodeFields op arg = .illegal .reservedOpcode) := by
  unfold decodeFields
  by_cases h0 : op = 0x01
  · exact .inl ⟨h0, if_pos h0⟩
  rw [if_neg h0]
  refine .inr ?_
  by_cases h1 : op = 0x02
  · exact .inl ⟨h1, if_pos h1⟩
  rw [if_neg h1]
  refine .inr ?_
  by_cases h2 : op = 0x03
  · exact .inl ⟨h2, if_pos h2⟩
  rw [if_neg h2]
  refine .inr ?_
  by_cases h3 : op = 0x10
  · exact .inl ⟨h3, if_pos h3⟩
  rw [if_neg h3]
  refine .inr ?_
  by_cases h4 : op = 0x11
  · exact .inl ⟨h4, if_pos h4⟩
  rw [if_neg h4]
  refine .inr ?_
  by_cases h5 : op = 0x12
  · exact .inl ⟨h5, if_pos h5⟩
  rw [if_neg h5]
  refine .inr ?_
  by_cases h6 : op = 0x13
  · exact .inl ⟨h6, if_pos h6⟩
  rw [if_neg h6]
  refine .inr ?_
  by_cases h7 : op = 0x14
  · exact .inl ⟨h7, if_pos h7⟩
  rw [if_neg h7]
  refine .inr ?_
  by_cases h8 : op = 0x20
  · exact .inl ⟨h8, if_pos h8⟩
  rw [if_neg h8]
  refine .inr ?_
  by_cases h9 : op = 0x21
  · exact .inl ⟨h9, if_pos h9⟩
  rw [if_neg h9]
  refine .inr ?_
  by_cases h10 : op = 0x22
  · exact .inl ⟨h10, if_pos h10⟩
  rw [if_neg h10]
  refine .inr ?_
  by_cases h11 : op = 0x23
  · exact .inl ⟨h11, if_pos h11⟩
  rw [if_neg h11]
  refine .inr ?_
  by_cases h12 : op = 0x24
  · exact .inl ⟨h12, if_pos h12⟩
  rw [if_neg h12]
  refine .inr ?_
  exact ⟨by simp only [legalOpcodes, List.mem_cons, List.not_mem_nil, or_false, not_or]; exact ⟨h0, h1, h2, h3, h4, h5, h6, h7, h8, h9, h10, h11, h12⟩, rfl⟩

theorem shapeN_cmd {i j : Instr} {arg : Word} (h : shapeN i arg = .cmd j) : arg = 0 ∧ j = i := by
  unfold shapeN at h
  by_cases ha : arg = 0
  · rw [if_pos ha] at h
    exact ⟨ha, (Decoded.cmd.inj h).symm⟩
  · rw [if_neg ha] at h
    cases h

theorem shapeF_cmd {mk : Bool → Instr} {j : Instr} {arg : Word} (h : shapeF mk arg = .cmd j) :
    arg.extractLsb' 1 31 = 0 ∧ j = mk (arg.getLsbD 0) := by
  unfold shapeF at h
  by_cases ha : arg.extractLsb' 1 31 = 0
  · rw [if_pos ha] at h
    exact ⟨ha, (Decoded.cmd.inj h).symm⟩
  · rw [if_neg ha] at h
    cases h

theorem shapeB_cmd {mk : Byte → Instr} {j : Instr} {arg : Word} (h : shapeB mk arg = .cmd j) :
    arg.extractLsb' 8 24 = 0 ∧ j = mk (arg.extractLsb' 0 8) := by
  unfold shapeB at h
  by_cases ha : arg.extractLsb' 8 24 = 0
  · rw [if_pos ha] at h
    exact ⟨ha, (Decoded.cmd.inj h).symm⟩
  · rw [if_neg ha] at h
    cases h

theorem shapeR_cmd {mk : Byte → Instr} {j : Instr} {arg : Word} (h : shapeR mk arg = .cmd j) :
    arg.extractLsb' 8 24 = 0 ∧ (arg.extractLsb' 0 8).toNat < Config.regCount ∧ j = mk (arg.extractLsb' 0 8) := by
  unfold shapeR at h
  by_cases ha : arg.extractLsb' 8 24 = 0
  · rw [if_pos ha] at h
    by_cases hb : (arg.extractLsb' 0 8).toNat < Config.regCount
    · rw [if_pos hb] at h
      exact ⟨ha, hb, (Decoded.cmd.inj h).symm⟩
    · rw [if_neg hb] at h
      cases h
  · rw [if_neg ha] at h
    cases h

theorem shapeW_cmd {mk : Word → Instr} {j : Instr} {arg : Word} (h : shapeW mk arg = .cmd j) : j = mk arg :=
  (Decoded.cmd.inj h).symm

/-- An operand whose bits 31:8 are 0 is its byte (R81, shapes R and B). -/
theorem setWidth_low {arg : Word} (h : arg.extractLsb' 8 24 = 0) : (arg.extractLsb' 0 8).setWidth 32 = arg := by
  refine BitVec.eq_of_getLsbD_eq fun i hi => ?_
  by_cases h8 : i < 8
  · simp [h8, hi]
  · have bit := congrArg (fun v => BitVec.getLsbD v (i - 8)) h
    simp [show i - 8 < 24 by omega, show 8 + (i - 8) = i by omega] at bit
    simp [h8, bit]

/-- An operand whose bits 31:1 are 0 is its flag (R81, shape F). -/
theorem setWidth_flag {arg : Word} (h : arg.extractLsb' 1 31 = 0) :
    (BitVec.ofBool (arg.getLsbD 0)).setWidth 32 = arg := by
  refine BitVec.eq_of_getLsbD_eq fun i hi => ?_
  by_cases h0 : i = 0
  · subst h0
    simp
  · have bit := congrArg (fun v => BitVec.getLsbD v (i - 1)) h
    simp [show i - 1 < 31 by omega, show 1 + (i - 1) = i by omega] at bit
    rw [bit, BitVec.getLsbD_setWidth, BitVec.getLsbD_ofBool]
    simp [h0]

end Sys2Proof.Machine
end

