-- ==== Sys2Proof/Laws/State.lean ====
section
/-!
SUPPORT. One lemma per field per named update of the block, and what each operation on a reply and on the ports gives, all
true by rfl, so that no later proof unfolds a record update.
-/

namespace Sys2Proof.Machine

variable (s : Block)

@[simp] theorem setPhase_sieveEn (p : Phase) : (setPhase p s).sieveEn = s.sieveEn := rfl
@[simp] theorem setPhase_phase (p : Phase) : (setPhase p s).phase = p := rfl
@[simp] theorem setPhase_cause (p : Phase) : (setPhase p s).cause = s.cause := rfl
@[simp] theorem setPhase_escPend (p : Phase) : (setPhase p s).escPend = s.escPend := rfl
@[simp] theorem setPhase_multipart (p : Phase) : (setPhase p s).multipart = s.multipart := rfl
@[simp] theorem setPhase_expPcrcV (p : Phase) : (setPhase p s).expPcrcV = s.expPcrcV := rfl
@[simp] theorem setPhase_expCrcV (p : Phase) : (setPhase p s).expCrcV = s.expCrcV := rfl
@[simp] theorem setPhase_crcPartRaw (p : Phase) : (setPhase p s).crcPartRaw = s.crcPartRaw := rfl
@[simp] theorem setPhase_crcSessRaw (p : Phase) : (setPhase p s).crcSessRaw = s.crcSessRaw := rfl
@[simp] theorem setPhase_len (p : Phase) : (setPhase p s).len = s.len := rfl
@[simp] theorem setPhase_parts (p : Phase) : (setPhase p s).parts = s.parts := rfl
@[simp] theorem setPhase_partNum (p : Phase) : (setPhase p s).partNum = s.partNum := rfl
@[simp] theorem setPhase_expSize (p : Phase) : (setPhase p s).expSize = s.expSize := rfl
@[simp] theorem setPhase_expPcrc (p : Phase) : (setPhase p s).expPcrc = s.expPcrc := rfl
@[simp] theorem setPhase_expCrc (p : Phase) : (setPhase p s).expCrc = s.expCrc := rfl

@[simp] theorem recordError_sieveEn (e : ErrorCause) : (recordError e s).sieveEn = s.sieveEn := rfl
@[simp] theorem recordError_phase (e : ErrorCause) : (recordError e s).phase = .fault := rfl
@[simp] theorem recordError_cause (e : ErrorCause) : (recordError e s).cause = causeCode e := rfl
@[simp] theorem recordError_escPend (e : ErrorCause) : (recordError e s).escPend = s.escPend := rfl
@[simp] theorem recordError_multipart (e : ErrorCause) : (recordError e s).multipart = s.multipart := rfl
@[simp] theorem recordError_expPcrcV (e : ErrorCause) : (recordError e s).expPcrcV = s.expPcrcV := rfl
@[simp] theorem recordError_expCrcV (e : ErrorCause) : (recordError e s).expCrcV = s.expCrcV := rfl
@[simp] theorem recordError_crcPartRaw (e : ErrorCause) : (recordError e s).crcPartRaw = s.crcPartRaw := rfl
@[simp] theorem recordError_crcSessRaw (e : ErrorCause) : (recordError e s).crcSessRaw = s.crcSessRaw := rfl
@[simp] theorem recordError_len (e : ErrorCause) : (recordError e s).len = s.len := rfl
@[simp] theorem recordError_parts (e : ErrorCause) : (recordError e s).parts = s.parts := rfl
@[simp] theorem recordError_partNum (e : ErrorCause) : (recordError e s).partNum = s.partNum := rfl
@[simp] theorem recordError_expSize (e : ErrorCause) : (recordError e s).expSize = s.expSize := rfl
@[simp] theorem recordError_expPcrc (e : ErrorCause) : (recordError e s).expPcrc = s.expPcrc := rfl
@[simp] theorem recordError_expCrc (e : ErrorCause) : (recordError e s).expCrc = s.expCrc := rfl

@[simp] theorem newSession_sieveEn : (newSession s).sieveEn = s.sieveEn := rfl
@[simp] theorem newSession_phase : (newSession s).phase = .idle := rfl
@[simp] theorem newSession_cause : (newSession s).cause = 0 := rfl
@[simp] theorem newSession_escPend : (newSession s).escPend = false := rfl
@[simp] theorem newSession_multipart : (newSession s).multipart = false := rfl
@[simp] theorem newSession_expPcrcV : (newSession s).expPcrcV = false := rfl
@[simp] theorem newSession_expCrcV : (newSession s).expCrcV = false := rfl
@[simp] theorem newSession_crcPartRaw : (newSession s).crcPartRaw = Config.pCrcInit := rfl
@[simp] theorem newSession_crcSessRaw : (newSession s).crcSessRaw = Config.pCrcInit := rfl
@[simp] theorem newSession_len : (newSession s).len = 0 := rfl
@[simp] theorem newSession_parts : (newSession s).parts = 0 := rfl
@[simp] theorem newSession_partNum : (newSession s).partNum = 0 := rfl
@[simp] theorem newSession_expSize : (newSession s).expSize = 0 := rfl
@[simp] theorem newSession_expPcrc : (newSession s).expPcrc = 0 := rfl
@[simp] theorem newSession_expCrc : (newSession s).expCrc = 0 := rfl

@[simp] theorem openPart_sieveEn (n : Word) : (openPart n s).sieveEn = s.sieveEn := rfl
@[simp] theorem openPart_phase (n : Word) : (openPart n s).phase = .body := rfl
@[simp] theorem openPart_cause (n : Word) : (openPart n s).cause = s.cause := rfl
@[simp] theorem openPart_escPend (n : Word) : (openPart n s).escPend = false := rfl
@[simp] theorem openPart_multipart (n : Word) : (openPart n s).multipart = s.multipart := rfl
@[simp] theorem openPart_expPcrcV (n : Word) : (openPart n s).expPcrcV = false := rfl
@[simp] theorem openPart_expCrcV (n : Word) : (openPart n s).expCrcV = s.expCrcV := rfl
@[simp] theorem openPart_crcPartRaw (n : Word) : (openPart n s).crcPartRaw = Config.pCrcInit := rfl
@[simp] theorem openPart_crcSessRaw (n : Word) : (openPart n s).crcSessRaw = s.crcSessRaw := rfl
@[simp] theorem openPart_len (n : Word) : (openPart n s).len = 0 := rfl
@[simp] theorem openPart_parts (n : Word) : (openPart n s).parts = s.parts := rfl
@[simp] theorem openPart_partNum (n : Word) : (openPart n s).partNum = n := rfl
@[simp] theorem openPart_expSize (n : Word) : (openPart n s).expSize = 0 := rfl
@[simp] theorem openPart_expPcrc (n : Word) : (openPart n s).expPcrc = 0 := rfl
@[simp] theorem openPart_expCrc (n : Word) : (openPart n s).expCrc = s.expCrc := rfl

@[simp] theorem setSieve_sieveEn (f : Bool) : (setSieve f s).sieveEn = f := rfl
@[simp] theorem setSieve_phase (f : Bool) : (setSieve f s).phase = s.phase := rfl
@[simp] theorem setSieve_cause (f : Bool) : (setSieve f s).cause = s.cause := rfl
@[simp] theorem setSieve_escPend (f : Bool) : (setSieve f s).escPend = s.escPend := rfl
@[simp] theorem setSieve_multipart (f : Bool) : (setSieve f s).multipart = s.multipart := rfl
@[simp] theorem setSieve_expPcrcV (f : Bool) : (setSieve f s).expPcrcV = s.expPcrcV := rfl
@[simp] theorem setSieve_expCrcV (f : Bool) : (setSieve f s).expCrcV = s.expCrcV := rfl
@[simp] theorem setSieve_crcPartRaw (f : Bool) : (setSieve f s).crcPartRaw = s.crcPartRaw := rfl
@[simp] theorem setSieve_crcSessRaw (f : Bool) : (setSieve f s).crcSessRaw = s.crcSessRaw := rfl
@[simp] theorem setSieve_len (f : Bool) : (setSieve f s).len = s.len := rfl
@[simp] theorem setSieve_parts (f : Bool) : (setSieve f s).parts = s.parts := rfl
@[simp] theorem setSieve_partNum (f : Bool) : (setSieve f s).partNum = s.partNum := rfl
@[simp] theorem setSieve_expSize (f : Bool) : (setSieve f s).expSize = s.expSize := rfl
@[simp] theorem setSieve_expPcrc (f : Bool) : (setSieve f s).expPcrc = s.expPcrc := rfl
@[simp] theorem setSieve_expCrc (f : Bool) : (setSieve f s).expCrc = s.expCrc := rfl

@[simp] theorem setMultipart_sieveEn : (setMultipart s).sieveEn = s.sieveEn := rfl
@[simp] theorem setMultipart_phase : (setMultipart s).phase = s.phase := rfl
@[simp] theorem setMultipart_cause : (setMultipart s).cause = s.cause := rfl
@[simp] theorem setMultipart_escPend : (setMultipart s).escPend = s.escPend := rfl
@[simp] theorem setMultipart_multipart : (setMultipart s).multipart = true := rfl
@[simp] theorem setMultipart_expPcrcV : (setMultipart s).expPcrcV = s.expPcrcV := rfl
@[simp] theorem setMultipart_expCrcV : (setMultipart s).expCrcV = s.expCrcV := rfl
@[simp] theorem setMultipart_crcPartRaw : (setMultipart s).crcPartRaw = s.crcPartRaw := rfl
@[simp] theorem setMultipart_crcSessRaw : (setMultipart s).crcSessRaw = s.crcSessRaw := rfl
@[simp] theorem setMultipart_len : (setMultipart s).len = s.len := rfl
@[simp] theorem setMultipart_parts : (setMultipart s).parts = s.parts := rfl
@[simp] theorem setMultipart_partNum : (setMultipart s).partNum = s.partNum := rfl
@[simp] theorem setMultipart_expSize : (setMultipart s).expSize = s.expSize := rfl
@[simp] theorem setMultipart_expPcrc : (setMultipart s).expPcrc = s.expPcrc := rfl
@[simp] theorem setMultipart_expCrc : (setMultipart s).expCrc = s.expCrc := rfl

@[simp] theorem setEscape_sieveEn (p : Bool) : (setEscape p s).sieveEn = s.sieveEn := rfl
@[simp] theorem setEscape_phase (p : Bool) : (setEscape p s).phase = s.phase := rfl
@[simp] theorem setEscape_cause (p : Bool) : (setEscape p s).cause = s.cause := rfl
@[simp] theorem setEscape_escPend (p : Bool) : (setEscape p s).escPend = p := rfl
@[simp] theorem setEscape_multipart (p : Bool) : (setEscape p s).multipart = s.multipart := rfl
@[simp] theorem setEscape_expPcrcV (p : Bool) : (setEscape p s).expPcrcV = s.expPcrcV := rfl
@[simp] theorem setEscape_expCrcV (p : Bool) : (setEscape p s).expCrcV = s.expCrcV := rfl
@[simp] theorem setEscape_crcPartRaw (p : Bool) : (setEscape p s).crcPartRaw = s.crcPartRaw := rfl
@[simp] theorem setEscape_crcSessRaw (p : Bool) : (setEscape p s).crcSessRaw = s.crcSessRaw := rfl
@[simp] theorem setEscape_len (p : Bool) : (setEscape p s).len = s.len := rfl
@[simp] theorem setEscape_parts (p : Bool) : (setEscape p s).parts = s.parts := rfl
@[simp] theorem setEscape_partNum (p : Bool) : (setEscape p s).partNum = s.partNum := rfl
@[simp] theorem setEscape_expSize (p : Bool) : (setEscape p s).expSize = s.expSize := rfl
@[simp] theorem setEscape_expPcrc (p : Bool) : (setEscape p s).expPcrc = s.expPcrc := rfl
@[simp] theorem setEscape_expCrc (p : Bool) : (setEscape p s).expCrc = s.expCrc := rfl

@[simp] theorem emitByte_sieveEn (v : Byte) : (emitByte v s).sieveEn = s.sieveEn := rfl
@[simp] theorem emitByte_phase (v : Byte) : (emitByte v s).phase = s.phase := rfl
@[simp] theorem emitByte_cause (v : Byte) : (emitByte v s).cause = s.cause := rfl
@[simp] theorem emitByte_escPend (v : Byte) : (emitByte v s).escPend = s.escPend := rfl
@[simp] theorem emitByte_multipart (v : Byte) : (emitByte v s).multipart = s.multipart := rfl
@[simp] theorem emitByte_expPcrcV (v : Byte) : (emitByte v s).expPcrcV = s.expPcrcV := rfl
@[simp] theorem emitByte_expCrcV (v : Byte) : (emitByte v s).expCrcV = s.expCrcV := rfl
@[simp] theorem emitByte_crcPartRaw (v : Byte) : (emitByte v s).crcPartRaw = crcStep s.crcPartRaw v := rfl
@[simp] theorem emitByte_crcSessRaw (v : Byte) : (emitByte v s).crcSessRaw = crcStep s.crcSessRaw v := rfl
@[simp] theorem emitByte_len (v : Byte) : (emitByte v s).len = s.len + 1 := rfl
@[simp] theorem emitByte_parts (v : Byte) : (emitByte v s).parts = s.parts := rfl
@[simp] theorem emitByte_partNum (v : Byte) : (emitByte v s).partNum = s.partNum := rfl
@[simp] theorem emitByte_expSize (v : Byte) : (emitByte v s).expSize = s.expSize := rfl
@[simp] theorem emitByte_expPcrc (v : Byte) : (emitByte v s).expPcrc = s.expPcrc := rfl
@[simp] theorem emitByte_expCrc (v : Byte) : (emitByte v s).expCrc = s.expCrc := rfl

@[simp] theorem loadSize_sieveEn (v : DWord) : (loadSize v s).sieveEn = s.sieveEn := rfl
@[simp] theorem loadSize_phase (v : DWord) : (loadSize v s).phase = s.phase := rfl
@[simp] theorem loadSize_cause (v : DWord) : (loadSize v s).cause = s.cause := rfl
@[simp] theorem loadSize_escPend (v : DWord) : (loadSize v s).escPend = s.escPend := rfl
@[simp] theorem loadSize_multipart (v : DWord) : (loadSize v s).multipart = s.multipart := rfl
@[simp] theorem loadSize_expPcrcV (v : DWord) : (loadSize v s).expPcrcV = s.expPcrcV := rfl
@[simp] theorem loadSize_expCrcV (v : DWord) : (loadSize v s).expCrcV = s.expCrcV := rfl
@[simp] theorem loadSize_crcPartRaw (v : DWord) : (loadSize v s).crcPartRaw = s.crcPartRaw := rfl
@[simp] theorem loadSize_crcSessRaw (v : DWord) : (loadSize v s).crcSessRaw = s.crcSessRaw := rfl
@[simp] theorem loadSize_len (v : DWord) : (loadSize v s).len = s.len := rfl
@[simp] theorem loadSize_parts (v : DWord) : (loadSize v s).parts = s.parts := rfl
@[simp] theorem loadSize_partNum (v : DWord) : (loadSize v s).partNum = s.partNum := rfl
@[simp] theorem loadSize_expSize (v : DWord) : (loadSize v s).expSize = v := rfl
@[simp] theorem loadSize_expPcrc (v : DWord) : (loadSize v s).expPcrc = s.expPcrc := rfl
@[simp] theorem loadSize_expCrc (v : DWord) : (loadSize v s).expCrc = s.expCrc := rfl

@[simp] theorem loadPartCrc_sieveEn (w : Word) : (loadPartCrc w s).sieveEn = s.sieveEn := rfl
@[simp] theorem loadPartCrc_phase (w : Word) : (loadPartCrc w s).phase = s.phase := rfl
@[simp] theorem loadPartCrc_cause (w : Word) : (loadPartCrc w s).cause = s.cause := rfl
@[simp] theorem loadPartCrc_escPend (w : Word) : (loadPartCrc w s).escPend = s.escPend := rfl
@[simp] theorem loadPartCrc_multipart (w : Word) : (loadPartCrc w s).multipart = s.multipart := rfl
@[simp] theorem loadPartCrc_expPcrcV (w : Word) : (loadPartCrc w s).expPcrcV = true := rfl
@[simp] theorem loadPartCrc_expCrcV (w : Word) : (loadPartCrc w s).expCrcV = s.expCrcV := rfl
@[simp] theorem loadPartCrc_crcPartRaw (w : Word) : (loadPartCrc w s).crcPartRaw = s.crcPartRaw := rfl
@[simp] theorem loadPartCrc_crcSessRaw (w : Word) : (loadPartCrc w s).crcSessRaw = s.crcSessRaw := rfl
@[simp] theorem loadPartCrc_len (w : Word) : (loadPartCrc w s).len = s.len := rfl
@[simp] theorem loadPartCrc_parts (w : Word) : (loadPartCrc w s).parts = s.parts := rfl
@[simp] theorem loadPartCrc_partNum (w : Word) : (loadPartCrc w s).partNum = s.partNum := rfl
@[simp] theorem loadPartCrc_expSize (w : Word) : (loadPartCrc w s).expSize = s.expSize := rfl
@[simp] theorem loadPartCrc_expPcrc (w : Word) : (loadPartCrc w s).expPcrc = w := rfl
@[simp] theorem loadPartCrc_expCrc (w : Word) : (loadPartCrc w s).expCrc = s.expCrc := rfl

@[simp] theorem loadSessCrc_sieveEn (w : Word) : (loadSessCrc w s).sieveEn = s.sieveEn := rfl
@[simp] theorem loadSessCrc_phase (w : Word) : (loadSessCrc w s).phase = s.phase := rfl
@[simp] theorem loadSessCrc_cause (w : Word) : (loadSessCrc w s).cause = s.cause := rfl
@[simp] theorem loadSessCrc_escPend (w : Word) : (loadSessCrc w s).escPend = s.escPend := rfl
@[simp] theorem loadSessCrc_multipart (w : Word) : (loadSessCrc w s).multipart = s.multipart := rfl
@[simp] theorem loadSessCrc_expPcrcV (w : Word) : (loadSessCrc w s).expPcrcV = s.expPcrcV := rfl
@[simp] theorem loadSessCrc_expCrcV (w : Word) : (loadSessCrc w s).expCrcV = true := rfl
@[simp] theorem loadSessCrc_crcPartRaw (w : Word) : (loadSessCrc w s).crcPartRaw = s.crcPartRaw := rfl
@[simp] theorem loadSessCrc_crcSessRaw (w : Word) : (loadSessCrc w s).crcSessRaw = s.crcSessRaw := rfl
@[simp] theorem loadSessCrc_len (w : Word) : (loadSessCrc w s).len = s.len := rfl
@[simp] theorem loadSessCrc_parts (w : Word) : (loadSessCrc w s).parts = s.parts := rfl
@[simp] theorem loadSessCrc_partNum (w : Word) : (loadSessCrc w s).partNum = s.partNum := rfl
@[simp] theorem loadSessCrc_expSize (w : Word) : (loadSessCrc w s).expSize = s.expSize := rfl
@[simp] theorem loadSessCrc_expPcrc (w : Word) : (loadSessCrc w s).expPcrc = s.expPcrc := rfl
@[simp] theorem loadSessCrc_expCrc (w : Word) : (loadSessCrc w s).expCrc = w := rfl

@[simp] theorem countPart_sieveEn : (countPart s).sieveEn = s.sieveEn := rfl
@[simp] theorem countPart_phase : (countPart s).phase = s.phase := rfl
@[simp] theorem countPart_cause : (countPart s).cause = s.cause := rfl
@[simp] theorem countPart_escPend : (countPart s).escPend = s.escPend := rfl
@[simp] theorem countPart_multipart : (countPart s).multipart = s.multipart := rfl
@[simp] theorem countPart_expPcrcV : (countPart s).expPcrcV = s.expPcrcV := rfl
@[simp] theorem countPart_expCrcV : (countPart s).expCrcV = s.expCrcV := rfl
@[simp] theorem countPart_crcPartRaw : (countPart s).crcPartRaw = s.crcPartRaw := rfl
@[simp] theorem countPart_crcSessRaw : (countPart s).crcSessRaw = s.crcSessRaw := rfl
@[simp] theorem countPart_len : (countPart s).len = s.len := rfl
@[simp] theorem countPart_parts : (countPart s).parts = s.parts + 1 := rfl
@[simp] theorem countPart_partNum : (countPart s).partNum = s.partNum := rfl
@[simp] theorem countPart_expSize : (countPart s).expSize = s.expSize := rfl
@[simp] theorem countPart_expPcrc : (countPart s).expPcrc = s.expPcrc := rfl
@[simp] theorem countPart_expCrc : (countPart s).expCrc = s.expCrc := rfl

@[simp] theorem respond_fst (c : Byte) (v : Word) : (respond c v s).1 = s := rfl
@[simp] theorem respond_snd (c : Byte) (v : Word) : (respond c v s).2 = rspWord c v := rfl
@[simp] theorem raise_fst (e : ErrorCause) : (raise e s).1 = recordError e s := rfl
@[simp] theorem raise_snd (e : ErrorCause) : (raise e s).2 = rspWord (causeCode e) 0 := rfl
@[simp] theorem discard_fst : (discard s).1 = s := rfl
@[simp] theorem discard_snd : (discard s).2 = rspWord codeDiscarded 0 := rfl

variable (m : State)

@[simp] theorem answered_toBlock (run : Block → Reply) : (answered run m).toBlock = (run m.toBlock).1 := rfl
@[simp] theorem answered_cmdPort (run : Block → Reply) : (answered run m).cmdPort = m.cmdPort := rfl
@[simp] theorem answered_rspPort (run : Block → Reply) :
    (answered run m).rspPort = m.rspPort ++ [(run m.toBlock).2] := rfl

@[simp] theorem presented_toBlock (w : CmdWord) : (presented w m).toBlock = m.toBlock := rfl
@[simp] theorem presented_cmdPort (w : CmdWord) : (presented w m).cmdPort = .command w :: m.cmdPort := rfl
@[simp] theorem presented_rspPort (w : CmdWord) : (presented w m).rspPort = m.rspPort := rfl

@[simp] theorem hardReset_toBlock : (hardReset m).toBlock = Block.reset := rfl
@[simp] theorem hardReset_cmdPort : (hardReset m).cmdPort = m.cmdPort := rfl
@[simp] theorem hardReset_rspPort : (hardReset m).rspPort = [] := rfl

end Sys2Proof.Machine
end

