-- ==== Sys2Proof/Laws/Ops.lean ====
section
/-!
SUPPORT. What each shared operation can do, said once: the guard of R91, the fetch, the sieve, DATA's body, and the two
validations. Later proofs cite these and do not unfold the operations.
-/

namespace Sys2Proof.Machine

variable {row : Phase → Admission} {run : Block → Reply} {s : Block} {m : State}

theorem guarded_run (h : row s.phase = .run) : guarded row run s = run s := by simp [guarded, h]

theorem guarded_raises {e : ErrorCause} (h : row s.phase = .raises e) : guarded row run s = raise e s := by
  simp [guarded, h]

theorem guarded_discards (h : row s.phase = .discards) : guarded row run s = discard s := by simp [guarded, h]

/-- Everything the guard can do. -/
theorem guarded_cases (row : Phase → Admission) (run : Block → Reply) (s : Block) :
    (row s.phase = .run ∧ guarded row run s = run s) ∨
    (∃ e, row s.phase = .raises e ∧ guarded row run s = raise e s) ∨
    (row s.phase = .discards ∧ guarded row run s = discard s) := by
  cases h : row s.phase with
  | run => exact .inl ⟨rfl, guarded_run h⟩
  | raises e => exact .inr (.inl ⟨e, rfl, guarded_raises h⟩)
  | discards => exact .inr (.inr ⟨rfl, guarded_discards h⟩)

@[simp] theorem anyPhase_run (p : Phase) : anyPhase p = .run := by cases p <;> rfl

theorem illegal_of_fault (h : s.phase = .fault) : illegal s = discard s := by simp [illegal, guarded, illegalWord, h]

theorem illegal_of_not_fault (h : s.phase ≠ .fault) : illegal s = raise .illegal s := by
  unfold illegal guarded
  cases hp : s.phase <;> simp_all [illegalWord]

@[simp] theorem takeMove_presented (w : CmdWord) (s : State) :
    takeMove (presented w s) = some (.command w, s) := rfl

theorem takeMove_nil (h : m.cmdPort = []) : takeMove m = none := by simp [takeMove, h]

theorem takeMove_cons {mv : HostMove} {ms : List HostMove} (h : m.cmdPort = mv :: ms) :
    takeMove m = some (mv, { m with cmdPort := ms }) := by simp [takeMove, h]

theorem sieve_bypass (esc : Bool) (b : Byte) : sieve false esc b = (some b, esc) := rfl

theorem sieve_escaped (b : Byte) : sieve true true b = (some (escapedByte b), false) := rfl

theorem sieve_marker : sieve true false Config.pEscByte = (none, true) := rfl

theorem sieve_plain {b : Byte} (h : b ≠ Config.pEscByte) : sieve true false b = (some (plainByte b), false) := by
  simp [sieve, h]

/-- Everything `DATA` can do in BODY (R140). -/
theorem runData_cases (b : Byte) (s : Block) :
    ((sieve s.sieveEn s.escPend b).1 = none ∧
      runData b s = respond codeOk 0 (setEscape (sieve s.sieveEn s.escPend b).2 s)) ∨
    (∃ v, (sieve s.sieveEn s.escPend b).1 = some v ∧ lenFull s = true ∧ runData b s = raise .overflow s) ∨
    (∃ v, (sieve s.sieveEn s.escPend b).1 = some v ∧ lenFull s = false ∧
      runData b s =
        respond codeOk (emittedVal v) (emitByte v (setEscape (sieve s.sieveEn s.escPend b).2 s))) := by
  rcases hs : sieve s.sieveEn s.escPend b with ⟨_ | v, p⟩
  · exact .inl ⟨rfl, by simp [runData, hs]⟩
  · cases hl : lenFull s
    · exact .inr (.inr ⟨v, rfl, rfl, by simp [runData, hs, hl]⟩)
    · exact .inr (.inl ⟨v, rfl, rfl, by simp [runData, hs, hl]⟩)

/-- A command that completed: the host's view of the machine after it. -/
theorem answered_of_respond {b : Block} {v : Word} (h : run m.toBlock = respond codeOk v b) :
    answered run m = afterOk v { m with toBlock := b } := by
  simp only [answered, h]
  rfl

/-- A command that raised after it had brought the block to `b`. -/
theorem answered_of_raise {b : Block} {e : ErrorCause} (h : run m.toBlock = raise e b) :
    answered run m = afterError (causeCode e) { m with toBlock := b } := by
  simp only [answered, h]
  rfl

/-- A command that was discarded. -/
theorem answered_of_discard (h : run m.toBlock = discard m.toBlock) : answered run m = afterDiscard m := by
  simp only [answered, h]
  rfl

/-- Everything `PEND` can do after it has counted the part (R181 steps 3 to 6). -/
theorem validatePart_cases (s : Block) :
    (sizeDiffers s = true ∧ validatePart s = raise .size s) ∨
    (sizeDiffers s = false ∧ partCrcDiffers s = true ∧ validatePart s = raise .crcPart s) ∨
    (sizeDiffers s = false ∧ partCrcDiffers s = false ∧
      validatePart s = respond codeOk (flagWord s.expPcrcV) (setPhase .idle s)) := by
  unfold validatePart
  cases sizeDiffers s <;> cases partCrcDiffers s <;> simp

/-- Everything `SEND` can do once a part is counted (R182 steps 2 to 5). -/
theorem validateSession_cases (s : Block) :
    (sessionCrcRuns s = true ∧ sessionCrcDiffers s = true ∧ validateSession s = raise .crcSess s) ∨
    (¬(sessionCrcRuns s = true ∧ sessionCrcDiffers s = true) ∧
      validateSession s = respond codeOk (flagWord (sessionCrcRuns s)) (setPhase .done s)) := by
  unfold validateSession
  cases sessionCrcRuns s <;> cases sessionCrcDiffers s <;> simp

/-- Everything one step can do (R66, R91, R240). -/
theorem step_cases (s : State) :
    (s.cmdPort = [] ∧ step s = .next s) ∨
    (∃ w ms, s.cmdPort = .command w :: ms ∧ step s = runWord w { s with cmdPort := ms }) ∨
    (∃ ms, s.cmdPort = .hardReset :: ms ∧ step s = .next (hardReset { s with cmdPort := ms })) := by
  rcases h : s.cmdPort with _ | ⟨w | _, ms⟩
  · exact .inl ⟨rfl, by simp [step, takeMove, h]⟩
  · exact .inr (.inl ⟨w, ms, rfl, by simp [step, takeMove, h]⟩)
  · exact .inr (.inr ⟨ms, rfl, by simp [step, takeMove, h]⟩)

theorem runWord_cmd {w : CmdWord} {i : Instr} (h : decode w = .cmd i) : runWord w m = exec i m := by
  simp [runWord, h]

theorem runWord_illegal {w : CmdWord} {why : IllegalKind} (h : decode w = .illegal why) :
    runWord w m = .next (answered illegal m) := by simp [runWord, h]

@[simp] theorem step_presented (w : CmdWord) (s : State) : step (presented w s) = runWord w s := rfl

theorem regView_of_lt {i : Byte} (h : i.toNat < Config.regCount) (s : Block) : ∃ v, regView s i = some v := by
  have : i ∈ ([0x00, 0x01, 0x02, 0x03, 0x04, 0x05, 0x06, 0x07, 0x08, 0x09, 0x0A, 0x0B, 0x0C] : List Byte) := by
    revert i
    decide
  fin_cases this <;> exact ⟨_, rfl⟩

end Sys2Proof.Machine
end

