-- ==== Sys2Proof/Laws/PerInstr.lean ====
section
/-!
SUPPORT. For each command: the word the encoder writes for it is one that its own row of the opcode map spells (R82).
-/

namespace Sys2Proof.Laws.EncodingRow

open Sys2Proof.Machine

/-- The encoding of a well-formed command is spelled by the row of its mnemonic. -/
def Statement (i : Instr) : Prop :=
  i.wellFormed = true → ∃ row ∈ opcodeMap, row.mnemonic = mnemonicOf i ∧ row.spelledBy (encode i) = true

theorem sinit : Statement .sinit := fun _ => by decide

theorem cfg (f : Bool) : Statement (.cfg f) := fun _ => by cases f <;> decide

/-- Masking with an 8-bit opcode mask keeps the opcode and clears the operand. -/
theorem opMask (op : Byte) (arg : Word) : cmdWord op arg &&& 0xFF00000000#40 = cmdWord op 0 := by
  rw [show (0xFF00000000#40) = cmdWord 0xFF 0 by decide, cmdWord_and]
  congr 1
  · exact BitVec.and_allOnes (x := op)
  · simp

/-- Masking with a mask that leaves out bits 7:0 clears a byte operand. -/
theorem byteMask (op : Byte) (b : Byte) : cmdWord op (b.setWidth 32) &&& 0xFFFFFFFF00#40 = cmdWord op 0 := by
  rw [show (0xFFFFFFFF00#40) = cmdWord 0xFF 0xFFFFFF00 by decide, cmdWord_and]
  congr 1
  · exact BitVec.and_allOnes (x := op)
  · refine BitVec.eq_of_getLsbD_eq fun i hi => ?_
    rw [BitVec.getLsbD_and, BitVec.getLsbD_setWidth]
    rcases Nat.lt_or_ge i 8 with h | h
    · have : BitVec.getLsbD (0xFFFFFF00 : Word) i = false := by interval_cases i <;> decide
      rw [this, Bool.and_false]
      exact (BitVec.getLsbD_zero).symm
    · simp [BitVec.getLsbD_of_ge b i h]

/-- A row of shape R or B, but for the index bound, spells every word with its opcode and a byte operand. -/
theorem byteRow (name : String) (op b : Byte) (h : name = "RDREG" → b.toNat ≤ 0x0C) :
    OpcodeRow.spelledBy ⟨name, cmdWord op 0, 0xFFFFFFFF00⟩ (cmdWord op (b.setWidth 32)) = true := by
  refine (spelledBy_iff _ _).2 ⟨byteMask op b, fun hn => ?_⟩
  have low : BitVec.extractLsb' 0 8 (cmdWord op (b.setWidth 32)) = b := by
    refine BitVec.eq_of_getLsbD_eq fun i hi => ?_
    simp [cmdWord, getLsbD_append40, hi, show i < 32 by omega]
  rw [low]
  exact h hn

theorem rdreg (i : Byte) : Statement (.rdreg i) := fun h =>
  have hi : i.toNat < 13 := of_decide_eq_true h
  ⟨⟨"RDREG", cmdWord 0x03 0, 0xFFFFFFFF00⟩, by decide, rfl, byteRow "RDREG" 0x03 i fun _ => by omega⟩

theorem pbegin : Statement .pbegin := fun _ => by decide

theorem data (b : Byte) : Statement (.data b) := fun _ =>
  ⟨⟨"DATA", cmdWord 0x12 0, 0xFFFFFFFF00⟩, by decide, rfl, byteRow "DATA" 0x12 b fun h => absurd h (by decide)⟩

/-- A row of shape W spells every word with its opcode. -/
theorem wordRow (name : String) (op : Byte) (w : Word) (hn : name ≠ "RDREG") :
    OpcodeRow.spelledBy ⟨name, cmdWord op 0, 0xFF00000000⟩ (cmdWord op w) = true :=
  (spelledBy_iff _ _).2 ⟨opMask op w, fun h => absurd h hn⟩

theorem pbeginm (n : Word) : Statement (.pbeginm n) := fun _ =>
  ⟨⟨"PBEGINM", cmdWord 0x11 0, 0xFF00000000⟩, by decide, rfl, wordRow "PBEGINM" 0x11 n (by decide)⟩

theorem pend : Statement .pend := fun _ => by decide

theorem send : Statement .send := fun _ => by decide

theorem ldsizel (w : Word) : Statement (.ldsizel w) := fun _ =>
  ⟨⟨"LDSIZEL", cmdWord 0x20 0, 0xFF00000000⟩, by decide, rfl, wordRow "LDSIZEL" 0x20 w (by decide)⟩

theorem ldsizeh (w : Word) : Statement (.ldsizeh w) := fun _ =>
  ⟨⟨"LDSIZEH", cmdWord 0x21 0, 0xFF00000000⟩, by decide, rfl, wordRow "LDSIZEH" 0x21 w (by decide)⟩

theorem ldpcrc (w : Word) : Statement (.ldpcrc w) := fun _ =>
  ⟨⟨"LDPCRC", cmdWord 0x22 0, 0xFF00000000⟩, by decide, rfl, wordRow "LDPCRC" 0x22 w (by decide)⟩

theorem ldcrc (w : Word) : Statement (.ldcrc w) := fun _ =>
  ⟨⟨"LDCRC", cmdWord 0x23 0, 0xFF00000000⟩, by decide, rfl, wordRow "LDCRC" 0x23 w (by decide)⟩

theorem chkpart (n : Word) : Statement (.chkpart n) := fun _ =>
  ⟨⟨"CHKPART", cmdWord 0x24 0, 0xFF00000000⟩, by decide, rfl, wordRow "CHKPART" 0x24 n (by decide)⟩

end Sys2Proof.Laws.EncodingRow
end

