-- ==== Sys2Proof/Laws/Run.lean ====
section
/-!
SUPPORT. A run of the machine, one step at a time, and the command port as the words still to come.
-/

namespace Sys2Proof.Machine

@[simp] theorem runs_zero (s : State) : runs 0 s = .next s := rfl

/-- One more step of a run of any machine behind the host's interface. -/
theorem core_run_succ (M : Host.Core) {s t : M.State} (n : Nat) (h : M.step s = .next t) :
    M.run (n + 1) s = M.run n t := by
  rw [Host.Core.run, h]

/-- One more step of a run. -/
theorem runs_succ {s t : State} (n : Nat) (h : step s = .next t) : runs (n + 1) s = runs n t :=
  core_run_succ Sys2Proof.core n h

/-- A state whose next move is a command word is that word presented to the state with the rest of the moves. -/
theorem eq_presented {s : State} {w : CmdWord} {ms : List HostMove} (h : s.cmdPort = .command w :: ms) :
    s = presented w { s with cmdPort := ms } := by
  cases s
  cases h
  rfl

end Sys2Proof.Machine
end

