-- ==== Sys2Proof/Tests/Slice0.lean ====
section
/-!
SUPPORT. Tests of the author's own. Expected values are those of 95_test_vectors.md (the vector's number stands at each
test) or are written out from the encoding tables of 30_encoding.md; the witnesses show that the hypotheses of the
statements can be met, at the boundary values of their clauses.
-/

namespace Sys2Proof.Tests

open Sys2Proof.Machine

/-- The reset state in another phase. -/
def inPhase (p : Phase) : State := { State.reset with phase := p }

/-- The state a step or a meaning reaches, if it reaches one. -/
def reached (o : Host.Outcome State Fault Refusal) : Option State :=
  match o with
  | .next s => some s
  | .fault _ => none
  | .refused _ => none

/-- The responses of a sequence of command words from a state. -/
def responses (s : State) (words : List CmdWord) : Option (List RspWord) :=
  (reached (runs words.length { s with cmdPort := words.map .command })).map State.rspPort

/-! ## Well-formedness -/

theorem test_wellFormed_refuses_index_0D : (Instr.rdreg 0x0D).wellFormed = false := by decide

theorem test_wellFormed_refuses_index_FF : (Instr.rdreg 0xFF).wellFormed = false := by decide

theorem test_wellFormed_accepts_index_0C : (Instr.rdreg 0x0C).wellFormed = true := by decide

/-! ## Decoding: words written out from R80 to R82, op in bits 39:32, arg in bits 31:0 -/

theorem test_decode_sinit :
    decode 0b0000000100000000000000000000000000000000 = .cmd .sinit := by decide

theorem test_decode_cfg :
    decode 0b0000001000000000000000000000000000000001 = .cmd (.cfg true) := by decide

theorem test_decode_rdreg :
    decode 0b0000001100000000000000000000000000001100 = .cmd (.rdreg 0x0C) := by decide

theorem test_decode_pbegin :
    decode 0b0001000000000000000000000000000000000000 = .cmd .pbegin := by decide

theorem test_decode_pbeginm :
    decode 0b0001000110000000000000000000000000000010 = .cmd (.pbeginm 0x80000002) := by decide

theorem test_decode_data :
    decode 0b0001001000000000000000000000000011111110 = .cmd (.data 0xFE) := by decide

theorem test_decode_pend :
    decode 0b0001001100000000000000000000000000000000 = .cmd .pend := by decide

theorem test_decode_send :
    decode 0b0001010000000000000000000000000000000000 = .cmd .send := by decide

theorem test_decode_ldsizel :
    decode 0b0010000000000000000000000000000000000101 = .cmd (.ldsizel 5) := by decide

theorem test_decode_ldsizeh :
    decode 0b0010000100000000000000000000000000000001 = .cmd (.ldsizeh 1) := by decide

theorem test_decode_ldpcrc :
    decode 0b0010001010110110110001001111101010001101 = .cmd (.ldpcrc 0xB6C4FA8D) := by decide

theorem test_decode_ldcrc :
    decode 0b0010001111001011111101000011100100100110 = .cmd (.ldcrc 0xCBF43926) := by decide

theorem test_decode_chkpart :
    decode 0b0010010011111111111111111111111111111111 = .cmd (.chkpart 0xFFFFFFFF) := by decide

/-- B5.15, B1.7, B1.10, B2.7, B3.11, B5.12, B5.14. -/
theorem test_decode_refuses_by_name :
    decode 0x0000000000 = .illegal .reservedOpcode ∧ decode 0x0200000002 = .illegal .operandBits ∧
    decode 0x030000000D = .illegal .reservedIndex ∧ decode 0x1000000001 = .illegal .operandBits ∧
    decode 0x1200000100 = .illegal .operandBits ∧ decode 0xFF00000000 = .illegal .reservedOpcode ∧
    decode 0x1400000001 = .illegal .operandBits := by decide

theorem test_decodeTableWord : decodeTableWord 40 0x1200000072 = some (.data 0x72) ∧
    decodeTableWord 40 0x030000000D = none := by decide

theorem test_withFetchWord_runs_the_word :
    (reached (step (State.reset.withFetchWord 40 0x1100000002))).map (fun t => (t.phase, t.partNum, t.multipart)) =
      some (.body, 2, true) := by decide

theorem test_encode_words : encode (.rdreg 0x0A) = 0x030000000A ∧ encode (.cfg true) = 0x0200000001 ∧
    encode (.chkpart 2) = 0x2400000002 ∧ encode (.data 0x3D) = 0x120000003D := by decide

/-! ## Commands -/

/-- B1.9 and R110's example. -/
theorem test_sinit_leaves_fault :
    (reached (exec .sinit { inPhase .fault with cause := 0x06, parts := 1, sieveEn := false, len := 2 })) =
      some { State.reset with sieveEn := false, rspPort := [0x0000000000] } := by decide

/-- B1.5 and B1.8. -/
theorem test_cfg : responses State.reset [0x0200000000, 0x0300000000] = some [0x0000000000, 0x0000000000] ∧
    responses (inPhase .body) [0x0200000000, 0x0300000000] = some [0x0200000000, 0x0000000001] := by decide

/-- B1.1 to B1.4, B1.10 to B1.14. -/
theorem test_rdreg :
    responses State.reset [0x0300000000, 0x0300000001, 0x0300000009, 0x030000000A, 0x030000000D] =
      some [0x0000000001, 0x0000000000, 0x0000000000, 0x0000000000, 0x0100000000] ∧
    responses { inPhase .fault with cause := 0x07 } [0x0100000001, 0x0300000002, 0x030000000D, 0x0300000102] =
      some [0x7F00000000, 0x0000000007, 0x7F00000000, 0x7F00000000] := by decide

/-- B2.5: what a part begin clears and what it leaves. -/
theorem test_pbegin :
    reached (exec .pbegin { State.reset with
        parts := 1, multipart := true, partNum := 1, escPend := true, len := 1, expSize := 1, expPcrcV := true,
        expPcrc := 0x3DD7FFA7, crcPartRaw := 0xC2280058, crcSessRaw := 0xC2280058, expCrcV := true, expCrc := 7 }) =
      some { State.reset with
        phase := .body, parts := 1, multipart := true, crcSessRaw := 0xC2280058, expCrcV := true, expCrc := 7,
        rspPort := [0x0000000000] } := by decide

/-- B2.2, B2.4. -/
theorem test_pbeginm : responses State.reset [0x1100000002, 0x0300000001, 0x0300000003] =
      some [0x0000000000, 0x0000000009, 0x0000000002] ∧
    responses State.reset [0x11FFFFFFFF, 0x0300000003] = some [0x0000000000, 0x00FFFFFFFF] := by decide

/-- R140's example. -/
theorem test_data :
    responses (inPhase .body) [0x1200000072, 0x120000003D, 0x1200000040] =
      some [0x0000000148, 0x0000000000, 0x00000001D6] := by
  set_option maxRecDepth 4000 in decide

/-- B3.6, its last response: an escaped `=` and an escaped 0x7D, and the CRC of the two bytes they give. -/
theorem test_data_escapes :
    (sieveAll true false [0x3D, 0x3D, 0x3D, 0x7D]) = ([0xD3, 0x13], false) ∧
    crcStep 0xFFFFFFFF 0xD3 = 0x3227931C ∧ digest (crcStep 0x3227931C 0x13) = 0x6F72C5FD := by decide

/-- B3.10: the overflow leaves `ESC_PEND` as it was. -/
theorem test_data_overflow :
    (reached (exec (.data 0x40) { inPhase .body with len := 0xFFFFFFFFFFFFFFFF, escPend := true })).map
        (fun t => (t.phase, t.cause, t.escPend, t.len)) = some (.fault, 0x09, true, 0xFFFFFFFFFFFFFFFF) := by decide

/-- B3.1, B3.3: columns 0x00, 0x29, 0x2A, 0x69, 0x6A, 0xFF. -/
theorem test_sieve_columns :
    ([0x00, 0x29, 0x2A, 0x69, 0x6A, 0xFF].map fun b => (sieve true false b).1) =
      [some 0xD6, some 0xFF, some 0x00, some 0x3F, some 0x40, some 0xD5] ∧
    ([0x00, 0x29, 0x2A, 0x69, 0x6A, 0xFF].map fun b => (sieve true true b).1) =
      [some 0x96, some 0xBF, some 0xC0, some 0xFF, some 0x00, some 0x95] ∧
    sieve true false 0x3D = (none, true) ∧ sieve false true 0x3D = (some 0x3D, true) := by decide

/-- B3.8. -/
theorem test_crc_registers_of_digits :
    crcStep 0xFFFFFFFF 0x31 = 0x7C231048 ∧ crcStep 0x7C231048 0x32 = 0xB0ACBB32 ∧
    crcStep 0x651F2550 0x39 = 0x340BC6D9 := by decide

/-- B4.1, B4.2. -/
theorem test_ldsizel_keeps_high_half :
    responses { inPhase .body with expSize := 0x0000000100000005 } [0x2000000006, 0x0300000007, 0x0300000008] =
      some [0x0000000000, 0x0000000006, 0x0000000001] := by decide

theorem test_ldsizeh_keeps_low_half :
    responses { inPhase .body with expSize := 5 } [0x2100000001, 0x0300000007, 0x0300000008] =
      some [0x0000000000, 0x0000000005, 0x0000000001] := by decide

/-- B4.3. -/
theorem test_ldpcrc : responses (inPhase .body) [0x22B6C4FA8D, 0x0300000001, 0x030000000B] =
    some [0x0000000000, 0x0000000011, 0x00B6C4FA8D] := by decide

/-- B4.4. -/
theorem test_ldcrc : responses (inPhase .body) [0x23CBF43926, 0x0300000001, 0x030000000C] =
    some [0x0000000000, 0x0000000021, 0x00CBF43926] := by decide

/-- B4.5, B4.6. -/
theorem test_chkpart :
    responses { inPhase .body with partNum := 2, multipart := true } [0x2400000002, 0x2400000001, 0x0300000002] =
      some [0x0000000000, 0x0400000000, 0x0000000004] := by decide

/-- R181's example and B5.13. -/
theorem test_pend :
    reached (exec .pend { inPhase .body with
        len := 5, expSize := 5, expPcrcV := true, expPcrc := 0xB6C4FA8D, crcPartRaw := 0x493B0572 }) =
      some { State.reset with
        len := 5, expSize := 5, expPcrcV := true, expPcrc := 0xB6C4FA8D, crcPartRaw := 0x493B0572, parts := 1,
        rspPort := [0x0000000001] } ∧
    (reached (exec .pend { inPhase .body with parts := 0xFFFFFFFF })).map (fun t => (t.cause, t.parts)) =
      some (0x09, 0xFFFFFFFF) := by decide

/-- B5.4: the count stays when the CRC check fails. -/
theorem test_pend_crc_mismatch :
    (reached (exec .pend { inPhase .body with
        len := 2, expSize := 2, expPcrcV := true, expPcrc := 0xDEADBEEF, crcPartRaw := 0xB2E8F1F1 })).map
      (fun t => (t.phase, t.cause, t.parts, t.rspPort)) = some (.fault, 0x06, 1, [0x0600000000]) := by decide

/-- R182's example, B5.6, B5.5. -/
theorem test_send :
    responses { State.reset with parts := 1, expCrcV := true, expCrc := 0xB6C4FA8D, crcSessRaw := 0x493B0572 }
      [0x1400000000, 0x0300000001] = some [0x0000000001, 0x0000000022] ∧
    responses State.reset [0x1400000000] = some [0x0700000000] ∧
    responses (inPhase .body) [0x1400000000, 0x1300000000] = some [0x0300000000, 0x7F00000000] := by decide

/-- R183's table: the gate of each arrival order, as MULTIPART, PARTS and PART_NUM. -/
theorem test_session_gate :
    ([(false, 1, 0), (true, 2, 2), (true, 2, 1), (true, 1, 2), (true, 1, 1), (true, 2, 0)] : List (Bool × Word × Word)).map
        (fun c => sessionGate { Block.reset with multipart := c.1, parts := c.2.1, partNum := c.2.2 }) =
      [true, true, false, false, true, false] := by decide

/-- R240: reset between two commands, the responses counted anew. -/
theorem test_hard_reset :
    (reached (runs 2 { inPhase .fault with
        sieveEn := false, rspPort := [1], cmdPort := [.hardReset, .command 0x0300000000] })).map State.rspPort =
      some [0x0000000001] := by decide

/-- R92, R93. -/
theorem test_assemble :
    assemble ["SINIT", "CFG 1", "RDREG CRC_PART -- the digest", "", "LDSIZE 4294967301", "LINE \"J--m\"", "BYTES 0x3D 10"] =
      some [.sinit, .cfg true, .rdreg 9, .ldsizel 5, .ldsizeh 1, .data 0x4A, .data 0x2D, .data 0x2D, .data 0x6D,
        .data 0x3D, .data 10] ∧
    assembleLine "RDREG 0x0D" = none ∧ assembleLine "DATA 256" = none ∧ assembleLine "PBEGIN 1" = none := by decide

/-! ## Witnesses: the hypotheses of the statements can be met -/

theorem witness_DecodeOfEncode :
    (Instr.rdreg 0x0C).wellFormed = true ∧ (Instr.rdreg 0x00).wellFormed = true := by decide

theorem witness_EncodeOfDecode : decode 0x030000000C = .cmd (.rdreg 0x0C) := by decide

theorem witness_OpcodeMapDecidesTheCommand :
    decode 0x24FFFFFFFF = .cmd (.chkpart 0xFFFFFFFF) ∧
    ∀ row ∈ opcodeMap, row.spelledBy 0x030000000D = false := by decide

theorem witness_ReservedOpcodesAreIllegal :
    decode 0x0400000000 = .illegal .reservedOpcode ∧ decode 0x0FFFFFFFFF = .illegal .reservedOpcode ∧
    decode 0x1500000000 = .illegal .reservedOpcode ∧ decode 0x1F00000000 = .illegal .reservedOpcode ∧
    decode 0x2500000000 = .illegal .reservedOpcode ∧ decode 0xFFFFFFFFFF = .illegal .reservedOpcode := by decide

theorem witness_IllegalEncodingsRaiseOrAreDiscarded :
    (0x01 : Byte) ∈ ([0x01, 0x10, 0x13, 0x14] : List Byte) ∧ (1 : Word) ≠ 0 ∧ (2 : Word).extractLsb' 1 31 ≠ 0 ∧
    (0x100 : Word).extractLsb' 8 24 ≠ 0 ∧ 0x0C < ((0x0D : Word).extractLsb' 0 8).toNat ∧
    decode 0x0000000000 = .illegal .reservedOpcode ∧ State.reset.phase ≠ .fault ∧ (inPhase .fault).phase = .fault := by
  decide

theorem witness_StepRunsTheDecodedCommand :
    ({ State.reset with cmdPort := [.command 0x1000000000, .hardReset] } : State).cmdPort =
      .command 0x1000000000 :: [.hardReset] ∧ decode 0x1000000000 = .cmd .pbegin := by decide

theorem witness_DispatchFollowsThePhaseTable :
    (inPhase .fault).phase = .fault ∧ decode 0x0100000000 = .cmd .sinit ∧ decode 0x030000000C = .cmd (.rdreg 0x0C) ∧
    regView (inPhase .fault).toBlock 0x0C = some 0 ∧ decode 0x1200000000 ≠ .cmd .sinit ∧
    (∀ i, decode 0x1200000000 ≠ .cmd (.rdreg i)) ∧ (inPhase .body).phase ≠ .fault ∧
    decode 0x1400000000 = .cmd .send ∧ (inPhase .body).phase ∉ legalPhases .send ∧
    (inPhase .body).phase ∈ legalPhases .pend := by
  refine ⟨by decide, by decide, by decide, by decide, by decide, fun i => ?_, by decide, by decide, by decide, by decide⟩
  rw [show decode 0x1200000000 = .cmd (.data 0) by decide]
  exact fun h => by cases h

theorem witness_SessionOfWordsTakesThatManySteps :
    ({ State.reset with cmdPort := [.command 0x1000000000, .command 0x0000000000, .hardReset] } : State).cmdPort =
      ([0x1000000000, 0x0000000000] : List CmdWord).map .command ++ [.hardReset] := by decide

theorem witness_BlockWaitsForAMove : State.reset.cmdPort = [] := by decide

theorem witness_NoHiddenState :
    (∀ (i : Byte) (s' t' : State), i.toNat ≤ 0x0C → exec (.rdreg i) State.reset = .next s' →
      exec (.rdreg i) State.reset = .next t' → s'.rspPort.getLast? = t'.rspPort.getLast?) ∧
    (∃ s t : State, s ≠ t ∧ s.elements = t.elements ∧ ∃ s', step (presented 0x1000000000 s) = .next s') := by
  refine ⟨fun i s' t' _ hs ht => ?_, State.reset, { State.reset with rspPort := [7] }, by decide, by decide, _, rfl⟩
  rw [hs] at ht
  cases ht
  rfl

theorem witness_HardwareResetValues :
    ({ inPhase .fault with cmdPort := [.hardReset, .command 0] } : State).cmdPort = .hardReset :: [.command 0] := by
  decide

theorem witness_SinitIsResetButForTheSieve :
    ∃ t, exec .sinit { inPhase .fault with cause := 9 } = .next t ∧ (inPhase .fault).sieveEn = true := ⟨_, rfl, rfl⟩

theorem witness_ErrorsArePrecise :
    (∃ t, step (presented 0x1300000000 { inPhase .body with len := 1 }) = .next t ∧ (inPhase .body).phase ≠ .fault ∧
      t.phase = .fault ∧ t.cause = 0x05 ∧ t.parts = 1) ∧
    (∃ t, step (presented 0x1300000000 { inPhase .body with parts := 0xFFFFFFFF }) = .next t ∧ t.phase = .fault ∧
      t.cause = 0x09) ∧
    (∃ t, step (presented 0x0000000000 (inPhase .idle)) = .next t ∧ t.phase = .fault ∧ t.cause = 0x01) :=
  ⟨⟨_, rfl, by decide, by decide, by decide, by decide⟩, ⟨_, rfl, by decide, by decide⟩, _, rfl, by decide, by decide⟩

theorem witness_FaultFreezesAndDiscards :
    (inPhase .fault).phase = .fault ∧ (0x0100000001 : CmdWord) ≠ 0x0100000000 ∧
    ¬(0x0300000000 ≤ (0x030000000D : CmdWord).toNat ∧ (0x030000000D : CmdWord).toNat ≤ 0x030000000C) ∧
    ¬(0x0300000000 ≤ (0x02FFFFFFFF : CmdWord).toNat ∧ (0x02FFFFFFFF : CmdWord).toNat ≤ 0x030000000C) ∧
    ∃ t, step (presented 0x030000000C (inPhase .fault)) = .next t :=
  ⟨by decide, by decide, by decide, by decide, _, rfl⟩

theorem witness_OnlySinitAndResetLeaveFault :
    (∃ t, step { inPhase .fault with cmdPort := [.hardReset] } = .next t ∧ t.phase ≠ .fault) ∧
    (∃ t, step { inPhase .fault with cmdPort := [.command 0x0100000000] } = .next t ∧ t.phase ≠ .fault) ∧
    (∃ t, step { inPhase .fault with cmdPort := [.command 0x0100000001] } = .next t ∧ t.phase = .fault) :=
  ⟨⟨_, rfl, by decide⟩, ⟨_, rfl, by decide⟩, _, rfl, by decide⟩

theorem witness_PhaseTransitions :
    (∃ t, exec .pbegin State.reset = .next t ∧ t.phase = .body) ∧
    (∃ t, exec (.pbeginm 0) State.reset = .next t ∧ t.phase = .body) ∧
    (∃ t, exec .pend (inPhase .body) = .next t ∧ t.phase = .idle) ∧
    (∃ t, exec .send { State.reset with parts := 1 } = .next t ∧ t.phase = .done) ∧
    (∃ t, exec .sinit (inPhase .done) = .next t ∧ t.phase = .idle) ∧
    (∃ t, step (presented 0x0000000000 (inPhase .done)) = .next t ∧ t.phase = .fault) :=
  ⟨⟨_, rfl, by decide⟩, ⟨_, rfl, by decide⟩, ⟨_, rfl, by decide⟩, ⟨_, rfl, by decide⟩, ⟨_, rfl, by decide⟩, _, rfl,
    by decide⟩

theorem witness_WriteMatrix :
    ∃ t, exec (.data 0x3D) (inPhase .body) = .next t ∧ t.phase ≠ .fault ∧ mnemonicOf (.data 0x3D) ∉ ["CFG"] :=
  ⟨_, rfl, by decide, by decide⟩

theorem witness_commands_phases :
    (inPhase .idle).phase = .idle ∧ (inPhase .body).phase = .body ∧ (inPhase .done).phase = .done ∧
    (inPhase .fault).phase = .fault := by decide

theorem witness_PbeginOpensAFreshPart :
    State.reset.phase = .idle ∧ (inPhase .body).phase = .body ∧ (inPhase .fault).phase = .fault ∧
    (0x00000001 : Word) ≠ 0 ∧ (0x80000000 : Word) ≠ 0 := by decide

theorem witness_PbeginmOpensANumberedPart :
    State.reset.phase = .idle ∧ (inPhase .done).phase = .done ∧ (inPhase .fault).phase = .fault := by decide

theorem witness_SizeHalvesLoad :
    (inPhase .body).phase = .body ∧ Instr.ldsizeh 7 ∈ [Instr.ldsizel 7, .ldsizeh 7] ∧ State.reset.phase = .idle ∧
    (inPhase .fault).phase = .fault := by decide

theorem witness_ExpectedCrcsLoad :
    (inPhase .body).phase = .body ∧ Instr.ldcrc 7 ∈ [Instr.ldpcrc 7, .ldcrc 7] ∧ (inPhase .done).phase = .done ∧
    (inPhase .fault).phase = .fault := by decide

/-- The first line is an escaped `J` and a bare `=`, the next line is `=` and `r`. -/
theorem witness_LinesJoinUnderTheSieve :
    ∃ s : State, s.phase = .body ∧ s.sieveEn = true ∧ (sieveAll true s.escPend [0x3D, 0x4A]).2 = false ∧
      s.len.toNat + ([0x3D, 0x4A] : List Byte).length + 1 + ([0x72] : List Byte).length < 2 ^ 64 ∧
      s.cmdPort = ([0x3D, 0x4A] ++ [0x3D] : List Byte).map (fun c => .command (dataWord c)) ++
        (([0x3D, 0x72] : List Byte).map (fun c => .command (dataWord c)) ++ [.hardReset]) :=
  ⟨{ inPhase .body with
      cmdPort := [.command 0x120000003D, .command 0x120000004A, .command 0x120000003D, .command 0x120000003D,
        .command 0x1200000072, .hardReset] }, by decide⟩

theorem witness_ResetStateHasTheResetValues :
    ({ inPhase .fault with cmdPort := [.hardReset] } : State).cmdPort = [.hardReset] := by decide

theorem witness_OutputLength : (sieveAll false true [0x3D, 0x72]).1 = [0x3D, 0x72] ∧ markersIn true false [0x3D] = 1 := by
  decide

theorem witness_SinitBeginsASession : (0x00000001 : Word) ≠ 0 ∧ (0x80000000 : Word) ≠ 0 := by decide

theorem witness_CfgSetsTheSieveOption :
    (0x00000002 : Word).extractLsb' 1 31 ≠ 0 ∧ (0x80000000 : Word).extractLsb' 1 31 ≠ 0 := by decide

theorem witness_RdregAnswersTheView : 0x0C < (0x0000000D : Word).toNat ∧ 0x0C < (0x00000100 : Word).toNat := by decide

/-- Each clause of the statement about `DATA`, at the last value of `LEN` before the limit and at the limit. -/
theorem witness_DataSievesCountsAndFeeds :
    (∃ s : State, s.phase = .body ∧ s.len ≠ 0xFFFFFFFFFFFFFFFF ∧ s.len.toNat = 2 ^ 64 - 2 ∧ s.sieveEn = false) ∧
    (∃ s : State, s.phase = .body ∧ s.len ≠ 0xFFFFFFFFFFFFFFFF ∧ s.sieveEn = true ∧ s.escPend = true) ∧
    (∃ s : State, s.phase = .body ∧ s.len = 0xFFFFFFFFFFFFFFFF ∧ s.sieveEn = true ∧ s.escPend = false) ∧
    (∃ s : State, s.phase = .body ∧ s.len = 0xFFFFFFFFFFFFFFFF ∧
      ¬(s.sieveEn = true ∧ s.escPend = false ∧ (0x3E : Byte) = 0x3D)) ∧
    (0x00000100 : Word).extractLsb' 8 24 ≠ 0 :=
  ⟨⟨{ inPhase .body with len := 0xFFFFFFFFFFFFFFFE, sieveEn := false }, by decide⟩,
    ⟨{ inPhase .body with escPend := true }, by decide⟩, ⟨{ inPhase .body with len := 0xFFFFFFFFFFFFFFFF }, by decide⟩,
    ⟨{ inPhase .body with len := 0xFFFFFFFFFFFFFFFF }, by decide⟩, by decide⟩

theorem witness_DataRunIsTheSieve :
    ∃ s : State, s.phase = .body ∧ s.len.toNat + (sieveAll s.sieveEn s.escPend [0x3D, 0x4A, 0x6D]).1.length < 2 ^ 64 ∧
      s.cmdPort = ([0x3D, 0x4A, 0x6D] : List Byte).map (fun b => .command (dataWord b)) ++ [.command 0x1300000000] :=
  ⟨{ inPhase .body with
      cmdPort := [.command 0x120000003D, .command 0x120000004A, .command 0x120000006D, .command 0x1300000000] }, by decide⟩

theorem witness_EncodedBytesRoundTrip :
    ∃ s : State, 0x3D ∈ ([0x00, 0x0A, 0x0D, 0x3D] : List Byte) ∧ s.phase = .body ∧ s.sieveEn = true ∧
      s.escPend = false ∧ s.len.toNat + ([0x13, 0x48] : List Byte).length < 2 ^ 64 ∧
      s.cmdPort = (encodeBytes [0x00, 0x0A, 0x0D, 0x3D] [0x13, 0x48]).map (fun b => .command (dataWord b)) ++ [] :=
  ⟨{ inPhase .body with cmdPort := [.command 0x120000003D, .command 0x120000007D, .command 0x1200000072] }, by decide⟩

theorem witness_ChkpartComparesTheNumber :
    (inPhase .body).phase = .body ∧ (0 : Word) = (inPhase .body).partNum ∧ (1 : Word) ≠ (inPhase .body).partNum := by
  decide

theorem witness_LoadsRepeatAndInterleave :
    (inPhase .body).phase = .body ∧ mnemonicOf (.ldsizel 1) ≠ mnemonicOf (.ldsizeh 1) ∧
    (inPhase .body).len ≠ 0xFFFFFFFFFFFFFFFF := by decide

theorem witness_LdsizeReplacesTheWholeSize :
    ∃ s : State, s.phase = .body ∧
      s.cmdPort = (ldsizeCommands 0x100000005).map (fun i => .command (encode i)) ++ [.hardReset] :=
  ⟨{ inPhase .body with cmdPort := [.command 0x2000000005, .command 0x2100000001, .hardReset] }, by decide⟩

theorem witness_PendCountsAndValidates :
    (inPhase .body).phase = .body ∧ ({ inPhase .body with parts := 0xFFFFFFFF } : State).parts = 0xFFFFFFFF ∧
    (0xFFFFFFFE : Word) ≠ 0xFFFFFFFF ∧ ({ inPhase .body with len := 1 } : State).len ≠ (inPhase .body).expSize ∧
    (inPhase .body).len = (inPhase .body).expSize ∧
    ({ inPhase .body with expPcrcV := true, expPcrc := 1 } : State).crcPartRaw ^^^ 0xFFFFFFFF ≠ 1 ∧
    (inPhase .body).crcPartRaw ^^^ 0xFFFFFFFF = 0 := by decide

theorem witness_SendValidatesTheSession :
    (∃ s : State, s.phase = .idle ∧ s.parts ≠ 0 ∧ (s.multipart = false ∨ s.parts = s.partNum) ∧ s.expCrcV = true ∧
      ¬s.crcSessRaw ^^^ 0xFFFFFFFF = s.expCrc) ∧
    (∃ s : State, s.phase = .idle ∧ s.parts ≠ 0 ∧ (s.multipart = false ∨ s.parts = s.partNum) ∧ s.expCrcV = true ∧
      s.crcSessRaw ^^^ 0xFFFFFFFF = s.expCrc) ∧
    (∃ s : State, s.phase = .idle ∧ s.parts ≠ 0 ∧
      ¬((s.multipart = false ∨ s.parts = s.partNum) ∧ s.expCrcV = true)) ∧ State.reset.parts = 0 :=
  ⟨⟨{ State.reset with parts := 1, multipart := true, partNum := 1, expCrcV := true, expCrc := 5 }, by decide⟩,
    ⟨{ State.reset with parts := 1, expCrcV := true }, by decide⟩,
    ⟨{ State.reset with parts := 1, multipart := true, partNum := 2, expCrcV := true }, by decide⟩, by decide⟩

theorem witness_OverflowKeepsTheCounter :
    ({ inPhase .body with len := 0xFFFFFFFFFFFFFFFF } : State).len.toNat = 2 ^ 64 - 1 ∧
    (sieve true false 0x41).1.isSome = true ∧
    ({ inPhase .body with parts := 0xFFFFFFFF } : State).parts.toNat = 2 ^ 32 - 1 := by decide

theorem witness_CountersNeverWrap :
    (∃ t, exec (.data 0x72) (inPhase .body) = .next t ∧ t.len.toNat = 1) ∧
    (∃ t, exec .pend { inPhase .body with parts := 0xFFFFFFFE } = .next t ∧ t.parts.toNat = 2 ^ 32 - 1) :=
  ⟨⟨_, rfl, by decide⟩, _, rfl, by decide⟩

theorem witness_PassedPartIsValid : ∃ t, exec .pend { inPhase .body with expPcrcV := true } = .next t ∧
    t.phase = .idle ∧ t.expPcrcV = true := ⟨_, rfl, by decide, by decide⟩

theorem witness_SuccessMeansValidated :
    ∃ t, exec .send { State.reset with parts := 1, expCrcV := true } = .next t ∧ t.phase = .done ∧
      State.reset.phase ≠ .done ∧ t.expCrcV = true ∧ t.multipart = false :=
  ⟨_, rfl, by decide, by decide, by decide, by decide⟩

theorem witness_StepKeepsSessionInv :
    SessionInv { inPhase .body with cmdPort := [.command 0x1300000000] } ∧
    ∃ t, step { inPhase .body with cmdPort := [.command 0x1300000000] } = .next t := ⟨by decide, _, rfl⟩

theorem witness_RegistersTrackTheHostLog :
    Tracks { inPhase .body with cmdPort := [.command 0x1200000072] } HostLog.fresh ∧
    ∃ t, step { inPhase .body with cmdPort := [.command 0x1200000072] } = .next t ∧
      HostLog.fresh.after (.command 0x1200000072) t.rspPort.getLast? = { HostLog.fresh with part := [0x48], session := [0x48] } :=
  ⟨by decide, _, rfl, by decide⟩

theorem witness_UnsetValuesReadZero :
    UnsetReadsZero { inPhase .body with cmdPort := [.command 0x2200000001] } ∧
    ∃ t, step { inPhase .body with cmdPort := [.command 0x2200000001] } = .next t := ⟨by decide, _, rfl⟩

end Sys2Proof.Tests
end

/-!
SUPPORT. Every command and every word as one function of the block (R6), with the ports beside it, and what a guarded
meaning can do to the elements.
-/

namespace Sys2Proof.Machine

/-- `PEND` in BODY (R181). -/
def runPend (s : Block) : Reply := if partsFull s then raise .overflow s else validatePart (countPart s)

/-- `SEND` in IDLE (R182). -/
def runSend (s : Block) : Reply := if s.parts = 0 then raise .noParts s else validateSession s

/-- `CHKPART n` in BODY (R164). -/
def runChkpart (n : Word) (s : Block) : Reply := if n = s.partNum then respond codeOk 0 s else raise .partOrder s

/-- What the command `i` does to the block and what it answers: the function of R6 behind `exec` (tied to it by
`exec_eq_answered`). -/
def commandReply (i : Instr) : Block → Reply :=
  match i with
  | .sinit => guarded anyPhase (fun s => respond codeOk 0 (newSession s))
  | .cfg f => guarded idleOnly (fun s => respond codeOk 0 (setSieve f s))
  | .rdreg r => readView r
  | .pbegin => guarded idleOnly (fun s => respond codeOk 0 (openPart 0 s))
  | .pbeginm n => guarded idleOnly (fun s => respond codeOk 0 (openPart n (setMultipart s)))
  | .data b => guarded bodyOnly (runData b)
  | .pend => guarded bodyOnly runPend
  | .send => guarded endOfStream runSend
  | .ldsizel w => guarded bodyOnly (fun s => respond codeOk 0 (loadSize (withLowHalf s.expSize w) s))
  | .ldsizeh w => guarded bodyOnly (fun s => respond codeOk 0 (loadSize (withHighHalf s.expSize w) s))
  | .ldpcrc w => guarded bodyOnly (fun s => respond codeOk 0 (loadPartCrc w s))
  | .ldcrc w => guarded bodyOnly (fun s => respond codeOk 0 (loadSessCrc w s))
  | .chkpart n => guarded bodyOnly (runChkpart n)

theorem exec_eq_answered (i : Instr) (s : State) : exec i s = .next (answered (commandReply i) s) := by
  cases i <;> rfl

theorem eq_answered_of_exec {i : Instr} {s t : State} (h : exec i s = .next t) : t = answered (commandReply i) s := by
  rw [exec_eq_answered] at h
  exact (Host.Outcome.next.inj h).symm

/-- What a command word does to the block and what it answers (R91), tied to `runWord` by `runWord_eq_answered`. -/
def wordReply (w : CmdWord) (s : Block) : Reply :=
  match decode w with
  | .cmd i => commandReply i s
  | .illegal _ => illegal s

theorem wordReply_cmd {w : CmdWord} {i : Instr} (h : decode w = .cmd i) : wordReply w = commandReply i := by
  funext s
  simp [wordReply, h]

theorem wordReply_illegal {w : CmdWord} {why : IllegalKind} (h : decode w = .illegal why) : wordReply w = illegal := by
  funext s
  simp [wordReply, h]

theorem runWord_eq_answered (w : CmdWord) (s : State) : runWord w s = .next (answered (wordReply w) s) := by
  cases h : decode w with
  | cmd i => rw [runWord_cmd h, wordReply_cmd h, exec_eq_answered]
  | illegal why => rw [runWord_illegal h, wordReply_illegal h]

/-- Everything a guarded meaning can do to the elements: its own rule runs, an error is raised, or they stay. -/
theorem guarded_fst_cases (row : Phase → Admission) (run : Block → Reply) (s : Block) :
    (row s.phase = .run ∧ (guarded row run s).1 = (run s).1) ∨
    (∃ e, (guarded row run s).1 = recordError e s) ∨ (guarded row run s).1 = s := by
  rcases guarded_cases row run s with ⟨hrow, h⟩ | ⟨e, -, h⟩ | ⟨-, h⟩ <;> rw [h]
  · exact .inl ⟨hrow, rfl⟩
  · exact .inr (.inl ⟨e, rfl⟩)
  · exact .inr (.inr rfl)

/-- An illegal word writes no element but in raising an error (R210). -/
theorem illegal_fst_cases (s : Block) : (illegal s).1 = s ∨ ∃ e, (illegal s).1 = recordError e s := by
  by_cases h : s.phase = .fault
  · exact .inl (by rw [illegal_of_fault h, discard_fst])
  · exact .inr ⟨.illegal, by rw [illegal_of_not_fault h, raise_fst]⟩

/-- Everything `PEND` can do in BODY to the elements: the count is full, the count stays under an error, or the part
is closed (R181). -/
theorem runPend_fst_cases (s : Block) :
    (partsFull s = true ∧ (runPend s).1 = recordError .overflow s) ∨
    (partsFull s = false ∧ ∃ e, (runPend s).1 = recordError e (countPart s)) ∨
    (partsFull s = false ∧ (runPend s).1 = setPhase .idle (countPart s)) := by
  cases hfull : partsFull s with
  | true => exact .inl ⟨rfl, by simp [runPend, hfull]⟩
  | false =>
    have hrun : runPend s = validatePart (countPart s) := by simp [runPend, hfull]
    rw [hrun]
    rcases validatePart_cases (countPart s) with ⟨-, h⟩ | ⟨-, -, h⟩ | ⟨-, -, h⟩ <;> rw [h]
    · exact .inr (.inl ⟨rfl, _, rfl⟩)
    · exact .inr (.inl ⟨rfl, _, rfl⟩)
    · exact .inr (.inr ⟨rfl, rfl⟩)

/-- Everything `SEND` can do in IDLE to the elements: an error, or the session is closed (R182). -/
theorem runSend_fst_cases (s : Block) :
    (∃ e, (runSend s).1 = recordError e s) ∨ (runSend s).1 = setPhase .done s := by
  unfold runSend
  split
  · exact .inl ⟨_, rfl⟩
  · rcases validateSession_cases s with ⟨-, -, h⟩ | ⟨-, h⟩ <;> rw [h]
    · exact .inl ⟨_, rfl⟩
    · exact .inr rfl

/-- `CHKPART` writes no element but in raising its error (R164). -/
theorem runChkpart_fst_cases (n : Word) (s : Block) :
    (runChkpart n s).1 = s ∨ (runChkpart n s).1 = recordError .partOrder s := by
  unfold runChkpart
  split
  · exact .inl rfl
  · exact .inr rfl

/-- `RDREG` writes no element but in raising an error. -/
theorem readView_fst_cases (i : Byte) (s : Block) :
    (readView i s).1 = s ∨ ∃ e, (readView i s).1 = recordError e s := by
  unfold readView
  split
  · exact .inl (by rw [guarded_run (anyPhase_run _), respond_fst])
  · exact illegal_fst_cases s

end Sys2Proof.Machine

/-!
PROOF. The statements of 00_scope.md: the CRC's polynomial and check values (R8), the counters (R10, R23, R25), and R6's
function of the block and one word.
-/

namespace Sys2Proof.Machine

/-! ## The CRC's parameters (R8) -/

theorem reverse_xor {w : Nat} (x y : BitVec w) : (x ^^^ y).reverse = x.reverse ^^^ y.reverse := by
  refine BitVec.eq_of_getLsbD_eq fun i _ => ?_
  simp only [BitVec.getLsbD_reverse, BitVec.getMsbD_xor, BitVec.getLsbD_xor]

theorem reverse_ushiftRight {w : Nat} (x : BitVec w) (n : Nat) : (x >>> n).reverse = x.reverse <<< n := by
  refine BitVec.eq_of_getMsbD_eq fun i _ => ?_
  simp only [BitVec.getMsbD_reverse, BitVec.getLsbD_ushiftRight, BitVec.getMsbD_shiftLeft, Nat.add_comm]

/-- The two forms of the polynomial in R8. -/
theorem pCrcPolyR_reverse : Config.pCrcPolyR.reverse = 0x04C11DB7 := by
  refine BitVec.eq_of_getLsbD_eq ?_
  simp only [BitVec.getLsbD_reverse]
  decide

/-- Settles O33: reversal turns the shift right into a shift left, the bit shifted out into the top bit, and the
reversed polynomial into the generator. -/
theorem crcRoundIsPolynomialDivision : Obligations.CrcRoundIsPolynomialDivision := by
  intro r
  rw [BitVec.msb_reverse]
  by_cases hbit : r.getLsbD 0 = true
  · simp only [crcRound, hbit, if_true, reverse_xor, reverse_ushiftRight, pCrcPolyR_reverse]
  · simp only [crcRound, hbit, Bool.false_eq_true, if_false, reverse_ushiftRight, BitVec.ofNat_eq_ofNat, BitVec.xor_zero]

/-- The raw register after each of the bytes 0x31 to 0x39 (95_test_vectors.md B3.8). -/
theorem crcStep_digits :
    crcStep 0xFFFFFFFF 0x31 = 0x7C231048 ∧ crcStep 0x7C231048 0x32 = 0xB0ACBB32 ∧
    crcStep 0xB0ACBB32 0x33 = 0x77B79C2D ∧ crcStep 0x77B79C2D 0x34 = 0x641C1F5C ∧
    crcStep 0x641C1F5C 0x35 = 0x340AC5E3 ∧ crcStep 0x340AC5E3 0x36 = 0xF68D2C9E ∧
    crcStep 0xF68D2C9E 0x37 = 0xAFFC9660 ∧ crcStep 0xAFFC9660 0x38 = 0x651F2550 ∧
    crcStep 0x651F2550 0x39 = 0x340BC6D9 := by decide

theorem crcFold_digits :
    crcFold 0xFFFFFFFF [0x31, 0x32, 0x33, 0x34, 0x35, 0x36, 0x37, 0x38, 0x39] = 0x340BC6D9 := by
  obtain ⟨h1, h2, h3, h4, h5, h6, h7, h8, h9⟩ := crcStep_digits
  simp only [crcFold_cons, crcFold_nil, h1, h2, h3, h4, h5, h6, h7, h8, h9]

/-- Settles O31: single steps by evaluation, the nine digits through their remainders. -/
theorem crcCheckValues : Obligations.CrcCheckValues := by
  refine ⟨by decide, by decide, by decide, by decide, by decide, ?_⟩
  rw [crc32, Config.pCrcInit, crcFold_digits]
  decide

/-! ## The counters (R10, R23, R25) -/

theorem len_succ_toNat {s : Block} (h : lenFull s = false) : (s.len + 1).toNat = s.len.toNat + 1 := by
  have hne : s.len.toNat ≠ 2 ^ 64 - 1 := fun hmax => by simp [lenFull, ← BitVec.toNat_inj, hmax] at h
  bv_omega

theorem parts_succ_toNat {s : Block} (h : partsFull s = false) : (s.parts + 1).toNat = s.parts.toNat + 1 := by
  have hne : s.parts.toNat ≠ 2 ^ 32 - 1 := fun hmax => by simp [partsFull, ← BitVec.toNat_inj, hmax] at h
  bv_omega

section Guarded

variable {row : Phase → Admission} {run : Block → Reply} {s : Block}

/-- Raising and discarding leave `LEN`, so a guarded meaning keeps it where its own rule does. -/
theorem guarded_len (hrun : (run s).1.len = s.len) : (guarded row run s).1.len = s.len := by
  rcases guarded_fst_cases row run s with ⟨-, h⟩ | ⟨e, h⟩ | h <;> simp [h, hrun]

/-- Raising and discarding leave `PARTS`, so a guarded meaning keeps it where its own rule does. -/
theorem guarded_parts (hrun : (run s).1.parts = s.parts) : (guarded row run s).1.parts = s.parts := by
  rcases guarded_fst_cases row run s with ⟨-, h⟩ | ⟨e, h⟩ | h <;> simp [h, hrun]

end Guarded

theorem runPend_len (s : Block) : (runPend s).1.len = s.len := by
  rcases runPend_fst_cases s with ⟨-, h⟩ | ⟨-, e, h⟩ | ⟨-, h⟩ <;> simp [h]

theorem runPend_parts (s : Block) :
    (runPend s).1.parts = s.parts ∨ (partsFull s = false ∧ (runPend s).1.parts = s.parts + 1) := by
  rcases runPend_fst_cases s with ⟨-, h⟩ | ⟨hfull, e, h⟩ | ⟨hfull, h⟩
  · exact .inl (by simp [h])
  · exact .inr ⟨hfull, by simp [h]⟩
  · exact .inr ⟨hfull, by simp [h]⟩

theorem runSend_len (s : Block) : (runSend s).1.len = s.len := by
  rcases runSend_fst_cases s with ⟨e, h⟩ | h <;> simp [h]

theorem runSend_parts (s : Block) : (runSend s).1.parts = s.parts := by
  rcases runSend_fst_cases s with ⟨e, h⟩ | h <;> simp [h]

theorem runChkpart_len (n : Word) (s : Block) : (runChkpart n s).1.len = s.len := by
  rcases runChkpart_fst_cases n s with h | h <;> simp [h]

theorem runChkpart_parts (n : Word) (s : Block) : (runChkpart n s).1.parts = s.parts := by
  rcases runChkpart_fst_cases n s with h | h <;> simp [h]

theorem readView_len (i : Byte) (s : Block) : (readView i s).1.len = s.len := by
  rcases readView_fst_cases i s with h | ⟨e, h⟩ <;> simp [h]

theorem readView_parts (i : Byte) (s : Block) : (readView i s).1.parts = s.parts := by
  rcases readView_fst_cases i s with h | ⟨e, h⟩ <;> simp [h]

theorem runData_len (b : Byte) (s : Block) :
    (runData b s).1.len = s.len ∨ (lenFull s = false ∧ (runData b s).1.len = s.len + 1) := by
  rcases runData_cases b s with ⟨-, h⟩ | ⟨v, -, -, h⟩ | ⟨v, -, hfull, h⟩
  · exact .inl (by simp [h])
  · exact .inl (by simp [h])
  · exact .inr ⟨hfull, by simp [h]⟩

theorem runData_parts (b : Byte) (s : Block) : (runData b s).1.parts = s.parts := by
  rcases runData_cases b s with ⟨-, h⟩ | ⟨v, -, -, h⟩ | ⟨v, -, -, h⟩ <;> simp [h]

/-- What a command does to `LEN`: only `SINIT`, a part begin and `DATA` write it, and `DATA` only where it has room. -/
theorem commandReply_len (i : Instr) (s : Block) (hi : mnemonicOf i ∉ ["SINIT", "PBEGIN", "PBEGINM"]) :
    (commandReply i s).1.len = s.len ∨
    (mnemonicOf i = "DATA" ∧ lenFull s = false ∧ (commandReply i s).1.len = s.len + 1) := by
  cases i with
  | sinit | pbegin | pbeginm => simp [mnemonicOf] at hi
  | data b =>
    rcases runData_len b s with hkept | ⟨hroom, hcounted⟩
    · exact .inl (guarded_len hkept)
    · rcases guarded_fst_cases bodyOnly (runData b) s with ⟨-, h⟩ | ⟨e, h⟩ | h
      · exact .inr ⟨rfl, hroom, by rw [commandReply, h, hcounted]⟩
      · exact .inl (by rw [commandReply, h, recordError_len])
      · exact .inl (by rw [commandReply, h])
  | rdreg r => exact .inl (readView_len r s)
  | pend => exact .inl (guarded_len (runPend_len s))
  | send => exact .inl (guarded_len (runSend_len s))
  | chkpart n => exact .inl (guarded_len (runChkpart_len n s))
  | cfg | ldsizel | ldsizeh | ldpcrc | ldcrc => exact .inl (guarded_len rfl)

/-- What a command does to `PARTS`: only `SINIT` and `PEND` write it, and `PEND` only where it has room. -/
theorem commandReply_parts (i : Instr) (s : Block) (hi : i ≠ .sinit) :
    (commandReply i s).1.parts = s.parts ∨
    (i = .pend ∧ partsFull s = false ∧ (commandReply i s).1.parts = s.parts + 1) := by
  cases i with
  | sinit => exact absurd rfl hi
  | pend =>
    rcases runPend_parts s with hkept | ⟨hroom, hcounted⟩
    · exact .inl (guarded_parts hkept)
    · rcases guarded_fst_cases bodyOnly runPend s with ⟨-, h⟩ | ⟨e, h⟩ | h
      · exact .inr ⟨rfl, hroom, by rw [commandReply, h, hcounted]⟩
      · exact .inl (by rw [commandReply, h, recordError_parts])
      · exact .inl (by rw [commandReply, h])
  | rdreg r => exact .inl (readView_parts r s)
  | data b => exact .inl (guarded_parts (runData_parts b s))
  | send => exact .inl (guarded_parts (runSend_parts s))
  | chkpart n => exact .inl (guarded_parts (runChkpart_parts n s))
  | cfg | pbegin | pbeginm | ldsizel | ldsizeh | ldpcrc | ldcrc => exact .inl (guarded_parts rfl)

/-- Settles O42: both counters add one only behind their overflow tests. -/
theorem countersNeverWrap : Obligations.CountersNeverWrap := by
  intro i s t ht
  rw [eq_answered_of_exec ht, answered_toBlock]
  constructor
  · intro hi
    rcases commandReply_len i s.toBlock hi with h | ⟨hdata, hfull, h⟩
    · exact .inl (by rw [h])
    · exact .inr ⟨hdata, by rw [h, len_succ_toNat hfull]⟩
  · intro hi
    rcases commandReply_parts i s.toBlock hi with h | ⟨hpend, hfull, h⟩
    · exact .inl (by rw [h])
    · exact .inr ⟨hpend, by rw [h, parts_succ_toNat hfull]⟩

/-! ## The step as a function (R6) -/

/-- Settles O51: the function is `wordReply`. -/
theorem commandIsAFunctionOfTheBlock : Obligations.CommandIsAFunctionOfTheBlock := by
  refine ⟨fun b w => wordReply w b, fun s w => ?_⟩
  rw [step_presented, runWord_eq_answered, answered]

end Sys2Proof.Machine

/-!
SUPPORT. Everything a command can do to the block and answer, said once as a relation, and what a step can do. The
invariants, the frames and the host's log follow from these.
-/

namespace Sys2Proof.Machine

/-- `CommandEffect s i r`: from the elements `s` the command `i` may give the reply `r`. One constructor for each way a
command can end, with what the block tested on the way (R91 and each command's own rule); tied to the model by
`commandReply_effect`. -/
inductive CommandEffect (s : Block) : Instr → Reply → Prop
  /-- R206. -/
  | discarded {i : Instr} (hi : i ≠ .sinit) (hphase : s.phase = .fault) : CommandEffect s i (discard s)
  /-- An error that leaves every element but `PHASE` and `CAUSE`: any but the two of `PEND`'s checks (R204). -/
  | raised {i : Instr} {e : ErrorCause} (hi : i ≠ .sinit) (hphase : s.phase ≠ .fault) (hsize : e ≠ .size)
      (hcrc : e ≠ .crcPart) : CommandEffect s i (raise e s)
  /-- R110. -/
  | began : CommandEffect s .sinit (respond codeOk 0 (newSession s))
  /-- R111. -/
  | configured (f : Bool) (hphase : s.phase = .idle) : CommandEffect s (.cfg f) (respond codeOk 0 (setSieve f s))
  /-- R112. -/
  | viewed (i : Byte) (v : Word) (hview : regView s i = some v) : CommandEffect s (.rdreg i) (respond codeOk v s)
  /-- R130. -/
  | opened (hphase : s.phase = .idle) : CommandEffect s .pbegin (respond codeOk 0 (openPart 0 s))
  /-- R131. -/
  | openedNumbered (n : Word) (hphase : s.phase = .idle) :
      CommandEffect s (.pbeginm n) (respond codeOk 0 (openPart n (setMultipart s)))
  /-- R140 with nothing emitted. -/
  | held (b : Byte) (hphase : s.phase = .body) (hsieve : (sieve s.sieveEn s.escPend b).1 = none) :
      CommandEffect s (.data b) (respond codeOk 0 (setEscape (sieve s.sieveEn s.escPend b).2 s))
  /-- R140 with the byte `v` emitted. -/
  | emitted (b v : Byte) (hphase : s.phase = .body) (hsieve : (sieve s.sieveEn s.escPend b).1 = some v)
      (hroom : lenFull s = false) :
      CommandEffect s (.data b)
        (respond codeOk (emittedVal v) (emitByte v (setEscape (sieve s.sieveEn s.escPend b).2 s)))
  /-- R181 steps 3 and 4: the count stays under the error. -/
  | partRejected (e : ErrorCause) (hphase : s.phase = .body) (hroom : partsFull s = false)
      (he : (e = .size ∧ sizeDiffers s = true) ∨ (e = .crcPart ∧ partCrcDiffers s = true)) :
      CommandEffect s .pend (raise e (countPart s))
  /-- R181 step 6. -/
  | partClosed (v : Word) (hphase : s.phase = .body) (hroom : partsFull s = false) (hsize : sizeDiffers s = false)
      (hcrc : partCrcDiffers s = false) :
      CommandEffect s .pend (respond codeOk v (setPhase .idle (countPart s)))
  /-- R182 step 5. -/
  | sessionClosed (v : Word) (hphase : s.phase = .idle) (hparts : s.parts ≠ 0)
      (hcrc : ¬(sessionCrcRuns s = true ∧ sessionCrcDiffers s = true)) :
      CommandEffect s .send (respond codeOk v (setPhase .done s))
  /-- R160. -/
  | lowSizeLoaded (w : Word) (hphase : s.phase = .body) :
      CommandEffect s (.ldsizel w) (respond codeOk 0 (loadSize (withLowHalf s.expSize w) s))
  /-- R161. -/
  | highSizeLoaded (w : Word) (hphase : s.phase = .body) :
      CommandEffect s (.ldsizeh w) (respond codeOk 0 (loadSize (withHighHalf s.expSize w) s))
  /-- R162. -/
  | partCrcLoaded (w : Word) (hphase : s.phase = .body) :
      CommandEffect s (.ldpcrc w) (respond codeOk 0 (loadPartCrc w s))
  /-- R163. -/
  | sessCrcLoaded (w : Word) (hphase : s.phase = .body) :
      CommandEffect s (.ldcrc w) (respond codeOk 0 (loadSessCrc w s))
  /-- R164. -/
  | numberChecked (n : Word) (hphase : s.phase = .body) (hn : n = s.partNum) :
      CommandEffect s (.chkpart n) (respond codeOk 0 s)

/-- A row of R90 that runs in the phase `p₀` alone: elsewhere it raises E_PROTO or E_TRUNC, and FAULT discards. -/
def RunsOnlyIn (p₀ : Phase) (row : Phase → Admission) : Prop :=
  ∀ p, (p = p₀ ∧ row p = .run) ∨ (p ≠ .fault ∧ (row p = .raises .proto ∨ row p = .raises .trunc)) ∨
    (p = .fault ∧ row p = .discards)

theorem idleOnly_runsOnlyIn : RunsOnlyIn .idle idleOnly := by
  intro p
  cases p <;> simp [idleOnly]

theorem bodyOnly_runsOnlyIn : RunsOnlyIn .body bodyOnly := by
  intro p
  cases p <;> simp [bodyOnly]

theorem endOfStream_runsOnlyIn : RunsOnlyIn .idle endOfStream := by
  intro p
  cases p <;> simp [endOfStream]

section Effects

variable {s : Block} {i : Instr}

/-- A guarded command discards, raises E_PROTO or E_TRUNC, or does what its own rule does in its phase. -/
theorem guarded_effect {p₀ : Phase} {row : Phase → Admission} {run : Block → Reply} (hrow : RunsOnlyIn p₀ row)
    (hi : i ≠ .sinit) (hrun : s.phase = p₀ → CommandEffect s i (run s)) : CommandEffect s i (guarded row run s) := by
  rcases hrow s.phase with ⟨hp, h⟩ | ⟨hp, h | h⟩ | ⟨hp, h⟩
  · rw [guarded_run h]
    exact hrun hp
  · rw [guarded_raises h]
    exact .raised hi hp (by decide) (by decide)
  · rw [guarded_raises h]
    exact .raised hi hp (by decide) (by decide)
  · rw [guarded_discards h]
    exact .discarded hi hp

/-- An illegal encoding raises or is discarded, as a refused command is (R88, R210). -/
theorem illegal_effect (hi : i ≠ .sinit) : CommandEffect s i (illegal s) := by
  by_cases hp : s.phase = .fault
  · rw [illegal_of_fault hp]
    exact .discarded hi hp
  · rw [illegal_of_not_fault hp]
    exact .raised hi hp (by decide) (by decide)

theorem readView_effect (r : Byte) : CommandEffect s (.rdreg r) (readView r s) := by
  unfold readView
  split
  · next v hview =>
    rw [guarded_run (anyPhase_run _)]
    exact .viewed r v hview
  · exact illegal_effect (by simp)

theorem runData_effect (b : Byte) (hp : s.phase = .body) : CommandEffect s (.data b) (runData b s) := by
  rcases runData_cases b s with ⟨hnone, h⟩ | ⟨v, -, -, h⟩ | ⟨v, hsome, hroom, h⟩ <;> rw [h]
  · exact .held b hp hnone
  · exact .raised (by simp) (by simp [hp]) (by decide) (by decide)
  · exact .emitted b v hp hsome hroom

theorem runPend_effect (hp : s.phase = .body) : CommandEffect s .pend (runPend s) := by
  unfold runPend
  cases hfull : partsFull s with
  | true => exact .raised (by simp) (by simp [hp]) (by decide) (by decide)
  | false =>
    rcases validatePart_cases (countPart s) with
      ⟨hsize, h⟩ | ⟨-, hcrc, h⟩ | ⟨hsize, hcrc, h⟩
    · simpa [h] using .partRejected .size hp hfull (.inl ⟨rfl, hsize⟩)
    · simpa [h] using .partRejected .crcPart hp hfull (.inr ⟨rfl, hcrc⟩)
    · simpa [h] using .partClosed _ hp hfull hsize hcrc

theorem runSend_effect (hp : s.phase = .idle) : CommandEffect s .send (runSend s) := by
  have refused {e : ErrorCause} (hsize : e ≠ .size) (hcrc : e ≠ .crcPart) : CommandEffect s .send (raise e s) :=
    .raised (by simp) (by simp [hp]) hsize hcrc
  unfold runSend
  split
  · exact refused (by decide) (by decide)
  · next hparts =>
    rcases validateSession_cases s with ⟨-, -, h⟩ | ⟨hcrc, h⟩ <;> rw [h]
    · exact refused (by decide) (by decide)
    · exact .sessionClosed _ hp hparts hcrc

theorem runChkpart_effect (n : Word) (hp : s.phase = .body) : CommandEffect s (.chkpart n) (runChkpart n s) := by
  unfold runChkpart
  split
  · next hn => exact .numberChecked n hp hn
  · exact .raised (by simp) (by simp [hp]) (by decide) (by decide)

end Effects

/-- Every reply of every command is one of the ways in `CommandEffect`. -/
theorem commandReply_effect (i : Instr) (s : Block) : CommandEffect s i (commandReply i s) := by
  cases i <;> rw [commandReply]
  case sinit =>
    rw [guarded_run (anyPhase_run _)]
    exact .began
  case rdreg r => exact readView_effect r
  case cfg f => exact guarded_effect idleOnly_runsOnlyIn (by simp) (.configured f)
  case pbegin => exact guarded_effect idleOnly_runsOnlyIn (by simp) .opened
  case pbeginm n => exact guarded_effect idleOnly_runsOnlyIn (by simp) (.openedNumbered n)
  case data b => exact guarded_effect bodyOnly_runsOnlyIn (by simp) (runData_effect b)
  case pend => exact guarded_effect bodyOnly_runsOnlyIn (by simp) runPend_effect
  case send => exact guarded_effect endOfStream_runsOnlyIn (by simp) runSend_effect
  case ldsizel w => exact guarded_effect bodyOnly_runsOnlyIn (by simp) (.lowSizeLoaded w)
  case ldsizeh w => exact guarded_effect bodyOnly_runsOnlyIn (by simp) (.highSizeLoaded w)
  case ldpcrc w => exact guarded_effect bodyOnly_runsOnlyIn (by simp) (.partCrcLoaded w)
  case ldcrc w => exact guarded_effect bodyOnly_runsOnlyIn (by simp) (.sessCrcLoaded w)
  case chkpart n => exact guarded_effect bodyOnly_runsOnlyIn (by simp) (runChkpart_effect n)

/-- What a word does to the elements is what some command can do: an illegal word's reply is that of a refused one. -/
theorem wordReply_effect (w : CmdWord) (s : Block) : ∃ i, CommandEffect s i (wordReply w s) := by
  cases h : decode w with
  | cmd i => exact ⟨i, by rw [wordReply_cmd h]; exact commandReply_effect i s⟩
  | illegal why => exact ⟨.send, by rw [wordReply_illegal h]; exact illegal_effect (by simp)⟩

theorem exec_effect {i : Instr} {s t : State} (h : exec i s = .next t) :
    ∃ r, CommandEffect s.toBlock i r ∧ t = answered (fun _ => r) s := by
  rw [eq_answered_of_exec h]
  exact ⟨commandReply i s.toBlock, commandReply_effect i s.toBlock, rfl⟩

theorem step_command {s : State} {w : CmdWord} {ms : List HostMove} (h : s.cmdPort = .command w :: ms) :
    step s = .next (answered (wordReply w) { s with cmdPort := ms }) := by
  calc step s = step (presented w { s with cmdPort := ms }) := by rw [← eq_presented h]
    _ = _ := by rw [step_presented, runWord_eq_answered]

theorem step_hardReset {s : State} {ms : List HostMove} (h : s.cmdPort = .hardReset :: ms) :
    step s = .next (hardReset { s with cmdPort := ms }) := by
  simp [step, takeMove_cons h]

/-- The rule of an invariant: what the reset elements have, and every effect of a command keeps, every step keeps. The
ports do not matter, since `P` is asked for whatever stands in them. -/
theorem step_keeps {P : State → Prop} (hreset : ∀ t : State, t.toBlock = Block.reset → P t)
    (hcommand : ∀ (s t : State) (i : Instr) (r : Reply), CommandEffect s.toBlock i r → t.toBlock = r.1 → P s → P t)
    {s t : State} (hs : P s) (h : step s = .next t) : P t := by
  rcases step_cases s with ⟨-, hstep⟩ | ⟨w, ms, hport, -⟩ | ⟨ms, hport, -⟩
  · rw [hstep] at h
    cases h
    exact hs
  · rw [step_command hport] at h
    cases h
    obtain ⟨i, heffect⟩ := wordReply_effect w s.toBlock
    exact hcommand s _ i _ heffect rfl hs
  · rw [step_hardReset hport] at h
    cases h
    exact hreset _ rfl

/-! ### The tests of the checks, and what they let through (R181, R182) -/

theorem partsFull_eq_false_iff (s : Block) : partsFull s = false ↔ s.parts ≠ 0xFFFFFFFF := by
  rw [partsFull, show BitVec.allOnes 32 = 0xFFFFFFFF by decide, beq_eq_false_iff_ne]

theorem sizeDiffers_eq_false_iff (s : Block) : sizeDiffers s = false ↔ s.len = s.expSize := by
  rw [sizeDiffers, bne_eq_false_iff_eq]

theorem partCrcDiffers_eq_false_iff (s : Block) :
    partCrcDiffers s = false ↔ (s.expPcrcV = true → s.crcPartRaw ^^^ 0xFFFFFFFF = s.expPcrc) := by
  rw [partCrcDiffers, Bool.and_eq_false_iff, bne_eq_false_iff_eq, digest, Config.pCrcXorOut]
  cases s.expPcrcV <;> simp

theorem sessionGate_iff (s : Block) : sessionGate s = true ↔ s.multipart = false ∨ s.parts = s.partNum := by
  simp [sessionGate]

theorem sessionCrcDiffers_iff (s : Block) : sessionCrcDiffers s = true ↔ s.crcSessRaw ^^^ 0xFFFFFFFF ≠ s.expCrc := by
  rw [sessionCrcDiffers, bne_iff_ne, digest, Config.pCrcXorOut]

/-- `PEND` closes the part exactly when its count has room and both checks pass (R181). -/
theorem runPend_phase_idle_iff (s : Block) :
    (runPend s).1.phase = .idle ↔ partsFull s = false ∧ sizeDiffers s = false ∧ partCrcDiffers s = false := by
  have hsameSize : sizeDiffers (countPart s) = sizeDiffers s := rfl
  have hsameCrc : partCrcDiffers (countPart s) = partCrcDiffers s := rfl
  unfold runPend
  cases partsFull s with
  | true => simp
  | false =>
    rcases validatePart_cases (countPart s) with ⟨hsize, h⟩ | ⟨-, hcrc, h⟩ | ⟨hsize, hcrc, h⟩
    · simp [h, ← hsameSize, hsize]
    · simp [h, ← hsameCrc, hcrc]
    · simp [h, ← hsameSize, ← hsameCrc, hsize, hcrc]

/-- `SEND` ends the session from IDLE exactly when a part is counted and no session check fails (R182). -/
theorem runSend_phase_done_iff (s : Block) :
    (runSend s).1.phase = .done ↔ s.parts ≠ 0 ∧ ¬(sessionCrcRuns s = true ∧ sessionCrcDiffers s = true) := by
  unfold runSend
  split
  · next hparts => simp [hparts]
  · next hparts =>
    rcases validateSession_cases s with ⟨hruns, hdiffers, h⟩ | ⟨hcrc, h⟩
    · simp [h, hruns, hdiffers]
    · simp only [h, respond_fst, setPhase_phase, true_iff]
      exact ⟨hparts, hcrc⟩

theorem commandReply_pend_of_body {s : Block} (h : s.phase = .body) : commandReply .pend s = runPend s :=
  guarded_run (by rw [h]; rfl)

theorem commandReply_send_of_idle {s : Block} (h : s.phase = .idle) : commandReply .send s = runSend s :=
  guarded_run (by rw [h]; rfl)

/-! ### Single commands and words -/

theorem commandReply_sinit (s : Block) : commandReply .sinit s = respond codeOk 0 (newSession s) := by
  rw [commandReply, guarded_run (anyPhase_run _)]

theorem illegal_phase (s : Block) : (illegal s).1.phase = .fault := by
  by_cases h : s.phase = .fault
  · rw [illegal_of_fault h, discard_fst, h]
  · rw [illegal_of_not_fault h, raise_fst, recordError_phase]

/-- The elements after a command. -/
theorem toBlock_of_exec {i : Instr} {s t : State} (h : exec i s = .next t) :
    t.toBlock = (commandReply i s.toBlock).1 := by
  rw [eq_answered_of_exec h, answered_toBlock]

theorem toBlock_of_step_presented {w : CmdWord} {s t : State} (h : step (presented w s) = .next t) :
    t.toBlock = (wordReply w s.toBlock).1 := by
  rw [step_presented, runWord_eq_answered] at h
  cases h
  rfl

theorem readView_of_view {i : Byte} {s : Block} {v : Word} (h : regView s i = some v) :
    readView i s = respond codeOk v s := by
  simp only [readView, h]
  exact guarded_run (anyPhase_run _)

/-- R112: `RDREG` of an index with a view answers it and changes no element, in every phase. -/
theorem exec_rdreg_of_view {i : Byte} {s : State} {v : Word} (h : regView s.toBlock i = some v) :
    exec (.rdreg i) s = .next (afterOk v s) := by
  rw [exec_eq_answered]
  exact congrArg _ (answered_of_respond (readView_of_view h))

/-- An operand above 0x0C fits no register index (R81, R88). -/
theorem decode_rdreg_reserved {arg : Word} (h : 0x0C < arg.toNat) :
    ∃ why, decode ((0x03 : Byte) ++ arg) = .illegal why := by
  have hdecode : decode ((0x03 : Byte) ++ arg) = shapeR .rdreg arg := decode_cmdWord 0x03 arg
  cases hshape : shapeR .rdreg arg with
  | illegal why => exact ⟨why, hdecode.trans hshape⟩
  | cmd j =>
    obtain ⟨hhigh, hlow, -⟩ := shapeR_cmd hshape
    have harg : arg.toNat = (arg.extractLsb' 0 8).toNat := by
      conv_lhs => rw [← setWidth_low hhigh]
      rw [BitVec.toNat_setWidth]
      omega
    rw [Config.regCount] at hlow
    omega

/-- R88, R206, R210: an illegal word on the machine. -/
theorem step_presented_illegal {w : CmdWord} {why : IllegalKind} (h : decode w = .illegal why) (s : State) :
    step (presented w s) = .next (if s.phase = .fault then afterDiscard s else afterError 0x01 s) := by
  rw [step_presented, runWord_illegal h]
  split
  · next hp => rw [answered_of_discard (illegal_of_fault hp)]
  · next hp => rw [answered_of_raise (illegal_of_not_fault hp)]; rfl

end Sys2Proof.Machine

/-!
PROOF. The statements of 10_state.md: the invariants of R52, and the registers against a host's log.
-/

namespace Sys2Proof.Machine

/-! ## The session invariant (R52 items 1, 2 and 7, R200) -/

theorem causeCode_ne_zero (e : ErrorCause) : causeCode e ≠ 0 := by cases e <;> decide

theorem causeCode_le (e : ErrorCause) : (causeCode e).toNat ≤ 9 := by cases e <;> decide

/-- An error recorded over any elements gives the session invariant: it fixes `PHASE` and `CAUSE`, and the other items
speak of phases other than FAULT. -/
theorem sessionInv_of_recordError {t : State} {e : ErrorCause} {b : Block} (ht : t.toBlock = recordError e b) :
    SessionInv t := by
  have hcode : causeCode e ≠ 0 := causeCode_ne_zero e
  simp_all [SessionInv, causeCode_le]

/-- In bypass the sieve leaves `ESC_PEND` (R144), so none comes to be pending there. -/
theorem sieve_off_keeps_no_escape {en esc : Bool} (b : Byte) (h : en = false → esc = false) :
    en = false → (sieve en esc b).2 = false := by
  rintro rfl
  rw [sieve_bypass, h rfl]

theorem sessionInv_of_reset {t : State} (ht : t.toBlock = Block.reset) : SessionInv t := by
  simp [SessionInv, ht, Block.reset]

theorem sessionInv_of_effect {s t : State} {i : Instr} {r : Reply} (h : CommandEffect s.toBlock i r)
    (ht : t.toBlock = r.1) (hs : SessionInv s) : SessionInv t := by
  obtain ⟨hcause, hbound, hesc, hdone⟩ := hs
  cases h with
  | raised | partRejected => exact sessionInv_of_recordError ht
  | discarded | viewed | numberChecked | lowSizeLoaded | highSizeLoaded | partCrcLoaded | sessCrcLoaded =>
    simp only [SessionInv, ht]
    exact ⟨hcause, hbound, hesc, hdone⟩
  | began => simp [SessionInv, ht]
  | configured _ hphase | opened hphase | openedNumbered _ hphase | partClosed _ hphase => simp_all [SessionInv]
  | held b hphase | emitted b _ hphase =>
    have hkept := sieve_off_keeps_no_escape b (hesc hphase)
    simp_all [SessionInv]
  | sessionClosed v hphase hparts =>
    have hcounted : 1 ≤ s.parts.toNat := by bv_omega
    simp_all [SessionInv]

/-- Settles O45. -/
theorem sessionInvAtReset : Obligations.SessionInvAtReset := sessionInv_of_reset rfl

/-- Settles O46, by `sessionInv_of_effect` over everything a command can do. -/
theorem stepKeepsSessionInv : Obligations.StepKeepsSessionInv := by
  intro s t hs h
  exact step_keeps (fun _ => sessionInv_of_reset) (fun _ _ _ _ => sessionInv_of_effect) hs h

/-! ## Unset values read as zero (R47, R50) -/

theorem unsetReadsZero_of_reset {t : State} (ht : t.toBlock = Block.reset) : UnsetReadsZero t := by
  simp [UnsetReadsZero, ht, Block.reset]

/-- A flag and its value are written together: only a part begin, `SINIT` and the two CRC loads touch them. -/
theorem unsetReadsZero_of_effect {s t : State} {i : Instr} {r : Reply} (h : CommandEffect s.toBlock i r)
    (ht : t.toBlock = r.1) (hs : UnsetReadsZero s) : UnsetReadsZero t := by
  obtain ⟨hpart, hsess, hnum⟩ := hs
  cases h with
  | began | opened | openedNumbered | partCrcLoaded | sessCrcLoaded => simp_all [UnsetReadsZero]
  | discarded | raised | configured | viewed | held | emitted | partRejected | partClosed | sessionClosed
  | lowSizeLoaded | highSizeLoaded | numberChecked =>
    simp only [UnsetReadsZero, ht]
    exact ⟨hpart, hsess, hnum⟩

/-- Settles O49. -/
theorem unsetValuesReadZero : Obligations.UnsetValuesReadZero := by
  refine ⟨unsetReadsZero_of_reset rfl, fun s t hs h => ?_⟩
  exact step_keeps (fun _ => unsetReadsZero_of_reset) (fun _ _ _ _ => unsetReadsZero_of_effect) hs h

/-! ## The host's log (R52 items 3 to 6, R26) -/

theorem digest_injective : Function.Injective digest := Function.LeftInverse.injective digest_digest

theorem digest_pCrcInit : digest Config.pCrcInit = crc32 [] := rfl

/-- A register that holds the CRC-32 of a sequence holds, after one more byte, that of the longer sequence (R149). -/
theorem digest_crcStep {r : Word} {bytes : List Byte} (h : digest r = crc32 bytes) (v : Byte) :
    digest (crcStep r v) = crc32 (bytes ++ [v]) := by
  have hr : r = crcFold Config.pCrcInit bytes := digest_injective h
  rw [hr, crc32, crcFold_append, crcFold_cons, crcFold_nil]

/-- Only the code `OK` hands out a byte. -/
theorem handedByte_of_code {code : Byte} (h : code ≠ codeOk) (v : Word) : handedByte (rspWord code v) = none := by
  simp [handedByte, h]

theorem handedByte_zero : handedByte (rspWord codeOk 0) = none := by decide

/-- R86: the response to an emitted byte hands out that byte. -/
theorem handedByte_emitted (v : Byte) : handedByte (rspWord codeOk (emittedVal v)) = some v := by
  revert v
  decide

/-- A response that is neither OK nor one of `PEND`'s two checks leaves the log, but for `SINIT`'s. -/
theorem hostLog_answered_of_refusal {i : Instr} {code : Byte} (h : HostLog) (hi : i ≠ .sinit)
    (hcode : code ∉ ([0x00, 0x05, 0x06] : List Byte)) : h.answered i (rspWord code 0) = h := by
  have hne : code ≠ 0x00 := fun h0 => hcode (by simp [h0])
  cases i with
  | sinit => exact absurd rfl hi
  | pbegin | pbeginm => simp only [HostLog.answered, rspCode_rspWord, if_neg hne]
  | data b => simp [HostLog.answered, handedByte_of_code (code := code) hne]
  | pend => simp only [HostLog.answered, rspCode_rspWord, if_neg hcode]
  | cfg | rdreg | send | ldsizel | ldsizeh | ldpcrc | ldcrc | chkpart => rfl

theorem causeCode_not_mem {e : ErrorCause} (hsize : e ≠ .size) (hcrc : e ≠ .crcPart) :
    causeCode e ∉ ([0x00, 0x05, 0x06] : List Byte) := by
  revert hsize hcrc
  cases e <;> decide

theorem tracks_fresh {t : State} (ht : t.toBlock = Block.reset) : Tracks t .fresh := by
  simp only [Tracks, ht]
  exact ⟨digest_pCrcInit, rfl, digest_pCrcInit, rfl, rfl, rfl⟩

/-- Every effect of a command moves the registers as its response moves the log. -/
theorem tracks_answered {s t : State} {i : Instr} {r : Reply} {h : HostLog} (heffect : CommandEffect s.toBlock i r)
    (ht : t.toBlock = r.1) (hs : Tracks s h) : Tracks t (h.answered i r.2) := by
  have hs' := hs
  obtain ⟨hpart, hlen, hsess, hmulti, hparts, hnum⟩ := hs
  simp only [Tracks, ht]
  cases heffect with
  | discarded hi =>
    rw [discard_snd, hostLog_answered_of_refusal h hi (by decide)]
    exact hs'
  | raised hi _ hsize hcrc =>
    rw [raise_snd, hostLog_answered_of_refusal h hi (causeCode_not_mem hsize hcrc)]
    exact hs'
  | configured | viewed | sessionClosed | lowSizeLoaded | highSizeLoaded | partCrcLoaded | sessCrcLoaded
  | numberChecked => exact hs'
  | began => exact ⟨digest_pCrcInit, rfl, digest_pCrcInit, rfl, rfl, rfl⟩
  | opened =>
    simpa [HostLog.answered, codeOk] using ⟨digest_pCrcInit, hsess, hmulti, hparts⟩
  | openedNumbered n =>
    simpa [HostLog.answered, codeOk] using ⟨digest_pCrcInit, hsess, hparts⟩
  | held b =>
    rw [respond_snd, HostLog.answered, handedByte_zero]
    simpa using hs'
  | emitted b v _ _ hroom =>
    rw [respond_snd, HostLog.answered, handedByte_emitted]
    have hcount : (s.len + 1).toNat = (h.part ++ [v]).length := by
      rw [len_succ_toNat hroom, hlen, List.length_append, List.length_singleton]
    exact ⟨digest_crcStep hpart v, hcount, digest_crcStep hsess v, hmulti, hparts, hnum⟩
  | partRejected e _ hroom he =>
    have hcount : (s.parts + 1).toNat = h.counted + 1 := by rw [parts_succ_toNat hroom, hparts]
    have hcode : causeCode e ∈ ([0x00, 0x05, 0x06] : List Byte) := by
      rcases he with ⟨rfl, -⟩ | ⟨rfl, -⟩ <;> decide
    rw [raise_snd, HostLog.answered, rspCode_rspWord, if_pos hcode]
    exact ⟨hpart, hlen, hsess, hmulti, hcount, hnum⟩
  | partClosed v _ hroom =>
    have hcount : (s.parts + 1).toNat = h.counted + 1 := by rw [parts_succ_toNat hroom, hparts]
    rw [respond_snd, HostLog.answered, rspCode_rspWord, if_pos (by decide)]
    exact ⟨hpart, hlen, hsess, hmulti, hcount, hnum⟩

/-- An illegal word is a refused command whose response the log ignores. -/
theorem tracks_illegal {s t : State} {h : HostLog} (ht : t.toBlock = (illegal s.toBlock).1) (hs : Tracks s h) :
    Tracks t h := by
  rcases illegal_fst_cases s.toBlock with hb | ⟨e, hb⟩ <;> simpa [Tracks, ht, hb] using hs

/-- Settles O47. -/
theorem freshLogTracksReset : Obligations.FreshLogTracksReset := tracks_fresh rfl

/-- Settles O48: a reset starts both anew, a command moves both alike, an illegal word moves neither. -/
theorem registersTrackTheHostLog : Obligations.RegistersTrackTheHostLog := by
  intro s t h m ms hs hport hstep
  cases m with
  | hardReset =>
    rw [step_hardReset hport] at hstep
    cases hstep
    exact tracks_fresh rfl
  | command w =>
    rw [step_command hport] at hstep
    cases hstep
    rw [answered_rspPort, List.getLast?_concat]
    cases hw : decode w with
    | cmd i =>
      simp only [HostLog.after, hw, wordReply_cmd hw]
      exact tracks_answered (commandReply_effect i s.toBlock) rfl hs
    | illegal why =>
      simp only [HostLog.after, hw, wordReply_illegal hw]
      exact tracks_illegal rfl hs

end Sys2Proof.Machine

/-!
PROOF. The statements of 10_state.md about reset (R50, R51), the frames (R47) and the transitions of PHASE (R30).
-/

namespace Sys2Proof.Machine

/-! ## Reset (R50, R51, R240) -/

/-- Settles O13. -/
theorem hardwareResetValues : Obligations.HardwareResetValues := by
  intro s ms h
  rw [step_hardReset h]
  rfl

/-- Settles O50. -/
theorem resetStateHasTheResetValues : Obligations.ResetStateHasTheResetValues := by
  refine ⟨rfl, fun s ms h => ⟨_, step_hardReset h, ?_⟩⟩
  exact hardReset_toBlock _

/-- R51. -/
theorem newSession_eq_reset (s : Block) : newSession s = { Block.reset with sieveEn := s.sieveEn } := rfl

/-- Settles O14. -/
theorem sinitIsResetButForTheSieve : Obligations.SinitIsResetButForTheSieve := by
  intro s t h
  have ht : t.elements = { Block.reset with sieveEn := s.sieveEn } := by
    rw [State.elements, toBlock_of_exec h, commandReply_sinit, respond_fst, newSession_eq_reset]
  refine ⟨ht, fun hon => ?_⟩
  rw [ht, hon]
  rfl

/-! ## The frames (R47) -/

/-- Settles O19, by the ways a command can end: some write nothing, an error only PHASE and CAUSE (and `PEND`'s count),
and each command's own rule the elements of its update. -/
theorem writeMatrix : Obligations.WriteMatrix := by
  intro i s t h
  obtain ⟨r, heffect, rfl⟩ := exec_effect h
  simp only [answered_toBlock, answered_cmdPort]
  cases heffect with
  | discarded | viewed | numberChecked => simp
  | raised | partRejected => simp [mnemonicOf]
  | began | configured | opened | openedNumbered | held | emitted | partClosed | sessionClosed | lowSizeLoaded
  | highSizeLoaded | partCrcLoaded | sessCrcLoaded => simp [mnemonicOf]

/-! ## The transitions of PHASE (R30) -/

/-- The second clause of R30's transitions: PHASE stays, or goes one of the five ways named. -/
theorem phase_of_effect {s : Block} {i : Instr} {r : Reply} (h : CommandEffect s i r) :
    r.1.phase = s.phase ∨
    (s.phase = .idle ∧ (i = .pbegin ∨ ∃ n, i = .pbeginm n) ∧ r.1.phase = .body) ∨
    (s.phase = .body ∧ i = .pend ∧ r.1.phase = .idle) ∨ (s.phase = .idle ∧ i = .send ∧ r.1.phase = .done) ∨
    (s.phase ≠ .fault ∧ r.1.phase = .fault) ∨ (i = .sinit ∧ r.1.phase = .idle) := by
  cases h with
  | discarded | configured | viewed | held | emitted | lowSizeLoaded | highSizeLoaded | partCrcLoaded | sessCrcLoaded
  | numberChecked => exact .inl rfl
  | raised _ hphase | partRejected _ hphase => simp [hphase]
  | began => simp
  | opened hphase | openedNumbered _ hphase | partClosed _ hphase | sessionClosed _ hphase => simp [hphase]

/-- Settles O18: the possible transitions by `phase_of_effect`, the exact ones by each command's own rule. -/
theorem phaseTransitions : Obligations.PhaseTransitions := by
  refine ⟨⟨rfl, rfl, rfl, rfl⟩, fun s t i h => ?transition, fun s t hp h => ?opening, fun s t hp h => ?closing,
    fun s t hp h => ?ending, fun s t h => ?sinit, fun s t ms hport h => ?hardReset, fun s t w why hw h => ?illegal⟩
  case transition =>
    rw [toBlock_of_exec h]
    exact phase_of_effect (commandReply_effect i s.toBlock)
  case opening =>
    rcases h with h | ⟨n, h⟩ <;>
    · rw [toBlock_of_exec h, commandReply, guarded_run (by rw [hp]; rfl)]
      rfl
  case closing =>
    rw [toBlock_of_exec h, commandReply_pend_of_body hp, runPend_phase_idle_iff, partsFull_eq_false_iff,
      sizeDiffers_eq_false_iff, partCrcDiffers_eq_false_iff]
  case ending =>
    rw [toBlock_of_exec h, commandReply_send_of_idle hp, runSend_phase_done_iff, sessionCrcRuns, Bool.and_eq_true,
      sessionGate_iff, sessionCrcDiffers_iff]
    simp only [not_and, not_not, ne_eq, and_imp]
  case sinit => rw [toBlock_of_exec h, commandReply_sinit, respond_fst, newSession_phase]
  case hardReset =>
    rw [step_hardReset hport] at h
    cases h
    rfl
  case illegal => rw [toBlock_of_step_presented h, wordReply_illegal hw, illegal_phase]

end Sys2Proof.Machine

/-!
PROOF. The statements of 10_state.md about the register views (R36, R45, R46).
-/

namespace Sys2Proof.Machine

/-! ## The views as numbers (R45, R46) -/

theorem ofBool_setWidth (f : Bool) : (BitVec.ofBool f).setWidth 32 = if f then 1 else 0 := by
  cases f <;> decide

theorem lowHalf_eq_ofNat (v : DWord) : lowHalf v = BitVec.ofNat 32 (v.toNat % 2 ^ 32) := by
  refine BitVec.eq_of_toNat_eq ?_
  simp [lowHalf]

theorem highHalf_eq_ofNat (v : DWord) : highHalf v = BitVec.ofNat 32 (v.toNat / 2 ^ 32) := by
  refine BitVec.eq_of_toNat_eq ?_
  simp [highHalf, Nat.shiftRight_eq_div_pow]

theorem byteOperand_eq_ofNat (b : Byte) : b.setWidth 32 = BitVec.ofNat 32 b.toNat := by
  refine BitVec.eq_of_toNat_eq ?_
  simp

/-- R46: the fields of `STATUS` as a sum. -/
theorem statusView_eq_sum (s : Block) : statusView s =
    BitVec.ofNat 32 ((phaseCode s.phase).toNat
      + (if s.escPend then 4 else 0) + (if s.multipart then 8 else 0) + (if s.expPcrcV then 16 else 0)
      + (if s.expCrcV then 32 else 0)) := by
  unfold statusView
  cases s.phase <;> cases s.escPend <;> cases s.multipart <;> cases s.expPcrcV <;> cases s.expCrcV <;> decide

/-- Settles O22: each index has its view, whose number is the listed one. -/
theorem rdregAnswersTheView : Obligations.RdregAnswersTheView := by
  intro s
  refine ⟨fun i v hv => ?_, fun arg harg => ?_⟩
  · fin_cases hv <;> refine ⟨by decide, exec_rdreg_of_view ?_⟩
    · exact congrArg some (ofBool_setWidth _)
    · change some (statusView s.toBlock) = _
      rw [statusView_eq_sum]
      cases s.phase <;> rfl
    · exact congrArg some (byteOperand_eq_ofNat _)
    · rfl
    · rfl
    · exact congrArg some (lowHalf_eq_ofNat _)
    · exact congrArg some (highHalf_eq_ofNat _)
    · exact congrArg some (lowHalf_eq_ofNat _)
    · exact congrArg some (highHalf_eq_ofNat _)
    · rfl
    · rfl
    · rfl
    · rfl
  · obtain ⟨why, hwhy⟩ := decode_rdreg_reserved harg
    exact step_presented_illegal hwhy s

/-! ## No hidden state (R36) -/

theorem ofBool_setWidth_injective {f g : Bool}
    (h : (BitVec.ofBool f).setWidth 32 = (BitVec.ofBool g).setWidth 32) : f = g := by
  revert h
  cases f <;> cases g <;> decide

theorem byteOperand_injective {a b : Byte} (h : a.setWidth 32 = b.setWidth 32) : a = b := by
  rw [← byteOperand_low a, h, byteOperand_low]

/-- A 64-bit element is its two halves. -/
theorem halves_append (v : DWord) : highHalf v ++ lowHalf v = v := by
  refine BitVec.eq_of_getLsbD_eq fun i hi => ?_
  rw [getLsbD_append64]
  split
  · next hlow => simp [lowHalf, hlow]
  · next hhigh => simp [highHalf, show i - 32 < 32 by omega, show 32 + (i - 32) = i by omega]

theorem eq_of_halves {u v : DWord} (hlow : lowHalf u = lowHalf v) (hhigh : highHalf u = highHalf v) : u = v := by
  rw [← halves_append u, hlow, hhigh, halves_append]

theorem phaseCode_injective : Function.Injective phaseCode := by
  intro p q
  cases p <;> cases q <;> decide

/-- The flags and the phase stand in bits of their own of `STATUS` (R46). -/
theorem statusView_fields (s : Block) :
    (statusView s).extractLsb' 0 2 = phaseCode s.phase ∧ (statusView s).getLsbD 2 = s.escPend ∧
    (statusView s).getLsbD 3 = s.multipart ∧ (statusView s).getLsbD 4 = s.expPcrcV ∧
    (statusView s).getLsbD 5 = s.expCrcV := by
  unfold statusView
  cases s.phase <;> cases s.escPend <;> cases s.multipart <;> cases s.expPcrcV <;> cases s.expCrcV <;> decide

/-- The thirteen views together determine the fifteen elements. -/
theorem block_eq_of_views {s t : Block} (h : ∀ i : Byte, i.toNat ≤ 0x0C → regView s i = regView t i) : s = t := by
  have view {v u : Word} (i : Byte) (hi : i.toNat ≤ 0x0C) (hs : regView s i = some v) (ht : regView t i = some u) :
      v = u := by
    rw [h i hi, ht] at hs
    exact (Option.some.inj hs).symm
  have hstatus : statusView s = statusView t := view 0x01 (by decide) rfl rfl
  obtain ⟨hphase, hesc, hmulti, hpcrcV, hcrcV⟩ := statusView_fields s
  rw [hstatus] at hphase hesc hmulti hpcrcV hcrcV
  obtain ⟨hphase', hesc', hmulti', hpcrcV', hcrcV'⟩ := statusView_fields t
  rw [hphase'] at hphase
  have hsieve : s.sieveEn = t.sieveEn := ofBool_setWidth_injective (view 0x00 (by decide) rfl rfl)
  have hcause : s.cause = t.cause := byteOperand_injective (view 0x02 (by decide) rfl rfl)
  have hnum : s.partNum = t.partNum := view 0x03 (by decide) rfl rfl
  have hparts : s.parts = t.parts := view 0x04 (by decide) rfl rfl
  have hlen : s.len = t.len := eq_of_halves (view 0x05 (by decide) rfl rfl) (view 0x06 (by decide) rfl rfl)
  have hsize : s.expSize = t.expSize := eq_of_halves (view 0x07 (by decide) rfl rfl) (view 0x08 (by decide) rfl rfl)
  have hpart : s.crcPartRaw = t.crcPartRaw := digest_injective (view 0x09 (by decide) rfl rfl)
  have hsess : s.crcSessRaw = t.crcSessRaw := digest_injective (view 0x0A (by decide) rfl rfl)
  have hpcrc : s.expPcrc = t.expPcrc := view 0x0B (by decide) rfl rfl
  have hcrc : s.expCrc = t.expCrc := view 0x0C (by decide) rfl rfl
  cases s
  cases t
  simp only [Block.mk.injEq]
  exact ⟨hsieve, (phaseCode_injective hphase).symm, hcause, hesc.symm.trans hesc', hmulti.symm.trans hmulti',
    hpcrcV.symm.trans hpcrcV', hcrcV.symm.trans hcrcV', hpart, hsess, hlen, hparts, hnum, hsize, hpcrc, hcrc⟩

theorem rspWord_injective {c c' : Byte} {u v : Word} (h : rspWord c u = rspWord c' v) : c = c' ∧ u = v :=
  ⟨by rw [← rspCode_rspWord c u, h, rspCode_rspWord], by rw [← rspVal_rspWord c u, h, rspVal_rspWord]⟩

/-- `RDREG` tells a view apart: equal answers are equal views. -/
theorem regView_eq_of_rdreg {s t : State} {i : Byte} (hi : i.toNat ≤ 0x0C)
    (h : ∀ s' t' : State, exec (.rdreg i) s = .next s' → exec (.rdreg i) t = .next t' →
      s'.rspPort.getLast? = t'.rspPort.getLast?) : regView s.toBlock i = regView t.toBlock i := by
  have hlt : i.toNat < Config.regCount := Nat.lt_succ_of_le hi
  obtain ⟨u, hu⟩ := regView_of_lt hlt s.toBlock
  obtain ⟨v, hv⟩ := regView_of_lt hlt t.toBlock
  have hlast := h _ _ (exec_rdreg_of_view hu) (exec_rdreg_of_view hv)
  simp only [afterOk, List.getLast?_concat, Option.some.injEq] at hlast
  rw [hu, hv, (rspWord_injective (c := codeOk) (c' := codeOk) hlast).2]

/-- Settles O12: the views determine the elements, and `wordReply` reads nothing else. -/
theorem noHiddenState : Obligations.NoHiddenState := by
  refine ⟨fun s t h => ?_, fun s t s' w (hst : s.toBlock = t.toBlock) hs => ?_⟩
  · exact block_eq_of_views fun i hi => regView_eq_of_rdreg hi fun s' t' => h i s' t' hi
  · rw [step_presented, runWord_eq_answered] at hs
    cases hs
    refine ⟨answered (wordReply w) t, (wordReply w s.toBlock).2, ?_, ?_, rfl, ?_⟩
    · rw [step_presented, runWord_eq_answered]
    · rw [State.elements, State.elements, answered_toBlock, answered_toBlock, hst]
    · rw [answered_rspPort, hst]

end Sys2Proof.Machine

/-!
PROOF. The encoding statements of 30_encoding.md: the decoder against the encoder (R83), the opcode map (R82), the
reserved opcodes (R87) and the operand shapes (R81, R88).
-/

namespace Sys2Proof.Machine

/-! ## What a shape admits (R81) -/

theorem shapeN_zero (i : Instr) : shapeN i 0 = .cmd i := if_pos rfl

theorem shapeF_flag (mk : Bool → Instr) (f : Bool) : shapeF mk ((BitVec.ofBool f).setWidth 32) = .cmd (mk f) := by
  cases f <;> rfl

theorem shapeF_of_high {mk : Bool → Instr} {arg : Word} (h : arg.extractLsb' 1 31 = 0) :
    shapeF mk arg = .cmd (mk (arg.getLsbD 0)) := if_pos h

theorem shapeB_of_high {mk : Byte → Instr} {arg : Word} (h : arg.extractLsb' 8 24 = 0) :
    shapeB mk arg = .cmd (mk (arg.extractLsb' 0 8)) := if_pos h

theorem shapeR_of_high {mk : Byte → Instr} {arg : Word} (h : arg.extractLsb' 8 24 = 0)
    (hlow : (arg.extractLsb' 0 8).toNat < Config.regCount) : shapeR mk arg = .cmd (mk (arg.extractLsb' 0 8)) := by
  rw [shapeR, if_pos h, if_pos hlow]

theorem shapeB_byte (mk : Byte → Instr) (b : Byte) : shapeB mk (b.setWidth 32) = .cmd (mk b) := by
  rw [shapeB_of_high (byteOperand_high b), byteOperand_low]

theorem shapeR_index (mk : Byte → Instr) {b : Byte} (h : b.toNat < Config.regCount) :
    shapeR mk (b.setWidth 32) = .cmd (mk b) := by
  rw [shapeR_of_high (byteOperand_high b) (by rwa [byteOperand_low]), byteOperand_low]

theorem exists_illegal {d : Decoded} (h : ∀ i, d ≠ .cmd i) : ∃ why, d = .illegal why := by
  cases d with
  | cmd i => exact absurd rfl (h i)
  | illegal why => exact ⟨why, rfl⟩

/-! ## Decode and encode (R83) -/

/-- Settles O1: each command's operand fits the shape of its opcode. -/
theorem decodeOfEncode : Obligations.DecodeOfEncode := by
  intro i hi
  rw [encode, decode_cmdWord]
  cases i with
  | sinit | pbegin | pend | send => exact shapeN_zero _
  | cfg f => exact shapeF_flag .cfg f
  | rdreg r => exact shapeR_index .rdreg (of_decide_eq_true hi)
  | data b => exact shapeB_byte .data b
  | pbeginm | ldsizel | ldsizeh | ldpcrc | ldcrc | chkpart => rfl

/-- What the decoder reads from two fields is well formed and has those fields: the inversion of `decodeFields`. -/
theorem fields_of_decodeFields {op : Byte} {arg : Word} {i : Instr} (h : decodeFields op arg = .cmd i) :
    i.wellFormed = true ∧ opcodeOf i = op ∧ operandOf i = arg := by
  have ofN {j : Instr} (hj : j.wellFormed = true ∧ opcodeOf j = op ∧ operandOf j = 0)
      (hd : decodeFields op arg = shapeN j arg) : i.wellFormed = true ∧ opcodeOf i = op ∧ operandOf i = arg := by
    obtain ⟨rfl, rfl⟩ := shapeN_cmd (hd.symm.trans h)
    exact hj
  have ofW {mk : Word → Instr} (hmk : ∀ v, (mk v).wellFormed = true ∧ opcodeOf (mk v) = op ∧ operandOf (mk v) = v)
      (hd : decodeFields op arg = shapeW mk arg) : i.wellFormed = true ∧ opcodeOf i = op ∧ operandOf i = arg := by
    obtain rfl := shapeW_cmd (hd.symm.trans h)
    exact hmk arg
  rcases decodeFields_cases op arg with ⟨rfl, hd⟩ | ⟨rfl, hd⟩ | ⟨rfl, hd⟩ | ⟨rfl, hd⟩ | ⟨rfl, hd⟩ | ⟨rfl, hd⟩ |
    ⟨rfl, hd⟩ | ⟨rfl, hd⟩ | ⟨rfl, hd⟩ | ⟨rfl, hd⟩ | ⟨rfl, hd⟩ | ⟨rfl, hd⟩ | ⟨rfl, hd⟩ | ⟨-, hd⟩
  · exact ofN ⟨rfl, rfl, rfl⟩ hd
  · obtain ⟨hhigh, rfl⟩ := shapeF_cmd (hd.symm.trans h)
    exact ⟨rfl, rfl, setWidth_flag hhigh⟩
  · obtain ⟨hhigh, hlow, rfl⟩ := shapeR_cmd (hd.symm.trans h)
    exact ⟨decide_eq_true hlow, rfl, setWidth_low hhigh⟩
  · exact ofN ⟨rfl, rfl, rfl⟩ hd
  · exact ofW (fun _ => ⟨rfl, rfl, rfl⟩) hd
  · obtain ⟨hhigh, rfl⟩ := shapeB_cmd (hd.symm.trans h)
    exact ⟨rfl, rfl, setWidth_low hhigh⟩
  · exact ofN ⟨rfl, rfl, rfl⟩ hd
  · exact ofN ⟨rfl, rfl, rfl⟩ hd
  · exact ofW (fun _ => ⟨rfl, rfl, rfl⟩) hd
  · exact ofW (fun _ => ⟨rfl, rfl, rfl⟩) hd
  · exact ofW (fun _ => ⟨rfl, rfl, rfl⟩) hd
  · exact ofW (fun _ => ⟨rfl, rfl, rfl⟩) hd
  · exact ofW (fun _ => ⟨rfl, rfl, rfl⟩) hd
  · exact absurd (hd.symm.trans h) (by simp)

/-- Settles O2: the word is its two fields, and those are the command's. -/
theorem encodeOfDecode : Obligations.EncodeOfDecode := by
  intro w i h
  obtain ⟨hwf, hop, harg⟩ := fields_of_decodeFields h
  exact ⟨hwf, by rw [encode, hop, harg, cmdWord_fields]⟩

/-! ## The opcode map (R82) -/

theorem rows_eq_of_mnemonic :
    ∀ row ∈ opcodeMap, ∀ row' ∈ opcodeMap, row.mnemonic = row'.mnemonic → row = row' := by decide

/-- The row of a command spells every word that decodes to it. -/
theorem exists_row_of_decode {w : CmdWord} {i : Instr} (h : decode w = .cmd i) :
    ∃ row ∈ opcodeMap, row.mnemonic = mnemonicOf i ∧ row.spelledBy w = true := by
  have hrow : Laws.EncodingRow.Statement i := by
    cases i with
    | sinit => exact Laws.EncodingRow.sinit
    | cfg f => exact Laws.EncodingRow.cfg f
    | rdreg r => exact Laws.EncodingRow.rdreg r
    | pbegin => exact Laws.EncodingRow.pbegin
    | pbeginm n => exact Laws.EncodingRow.pbeginm n
    | data b => exact Laws.EncodingRow.data b
    | pend => exact Laws.EncodingRow.pend
    | send => exact Laws.EncodingRow.send
    | ldsizel v => exact Laws.EncodingRow.ldsizel v
    | ldsizeh v => exact Laws.EncodingRow.ldsizeh v
    | ldpcrc v => exact Laws.EncodingRow.ldpcrc v
    | ldcrc v => exact Laws.EncodingRow.ldcrc v
    | chkpart n => exact Laws.EncodingRow.chkpart n
  obtain ⟨hwf, rfl⟩ := encodeOfDecode w i h
  exact hrow hwf

/-- A row's mask covers the whole opcode, so matching it fixes the opcode and clears the masked operand bits. -/
theorem fields_of_masked {w : CmdWord} {op : Byte} {m : Word} (h : w &&& cmdWord 0xFF m = cmdWord op 0) :
    decode w = decodeFields op (argField w) ∧ argField w &&& m = 0 := by
  rw [← cmdWord_fields w, cmdWord_and, show opField w &&& 0xFF = opField w from BitVec.and_allOnes] at h
  have hop : opField w = op := by simpa using congrArg opField h
  have harg : argField w &&& m = 0 := by simpa using congrArg argField h
  exact ⟨by rw [decode, hop], harg⟩

/-- A field of the operand that the mask covers is 0. -/
theorem extractLsb'_of_masked {arg m : Word} {k n : Nat} (h : arg &&& m = 0)
    (hm : m.extractLsb' k n = BitVec.allOnes n) : arg.extractLsb' k n = 0 := by
  have hfield := congrArg (BitVec.extractLsb' k n) h
  rw [BitVec.extractLsb'_and, hm, BitVec.and_allOnes] at hfield
  rw [hfield]
  exact BitVec.extractLsb'_zero

theorem decode_of_shapeN_row {w : CmdWord} {op : Byte} {i : Instr} (h : w &&& cmdWord 0xFF 0xFFFFFFFF = cmdWord op 0)
    (hop : decodeFields op = shapeN i) : decode w = .cmd i := by
  obtain ⟨hd, harg⟩ := fields_of_masked h
  rw [hd, hop, show argField w = 0 from BitVec.and_allOnes.symm.trans harg, shapeN_zero]

theorem decode_of_shapeW_row {w : CmdWord} {op : Byte} {mk : Word → Instr}
    (h : w &&& cmdWord 0xFF 0 = cmdWord op 0) (hop : decodeFields op = shapeW mk) :
    decode w = .cmd (mk (argField w)) := by
  rw [(fields_of_masked h).1, hop, shapeW]

theorem decode_of_shapeB_row {w : CmdWord} {op : Byte} {mk : Byte → Instr}
    (h : w &&& cmdWord 0xFF 0xFFFFFF00 = cmdWord op 0) (hop : decodeFields op = shapeB mk) :
    decode w = .cmd (mk ((argField w).extractLsb' 0 8)) := by
  obtain ⟨hd, harg⟩ := fields_of_masked h
  rw [hd, hop, shapeB_of_high (extractLsb'_of_masked harg rfl)]

theorem low_argField (w : CmdWord) : (argField w).extractLsb' 0 8 = w.extractLsb' 0 8 := by
  refine BitVec.eq_of_getLsbD_eq fun i hi => ?_
  simp [argField, hi]

/-- A word that a row spells decodes to a command of that row. -/
theorem exists_decode_of_row {w : CmdWord} {row : OpcodeRow} (hrow : row ∈ opcodeMap) (h : row.spelledBy w = true) :
    ∃ i, decode w = .cmd i ∧ mnemonicOf i = row.mnemonic := by
  obtain ⟨hmask, hindex⟩ := (spelledBy_iff row w).1 h
  fin_cases hrow
  · exact ⟨.sinit, decode_of_shapeN_row (op := 0x01) hmask rfl, rfl⟩
  · obtain ⟨hd, harg⟩ := fields_of_masked (op := 0x02) (m := 0xFFFFFFFE) hmask
    exact ⟨_, hd.trans (shapeF_of_high (extractLsb'_of_masked harg rfl)), rfl⟩
  · obtain ⟨hd, harg⟩ := fields_of_masked (op := 0x03) (m := 0xFFFFFF00) hmask
    have hlow : ((argField w).extractLsb' 0 8).toNat < Config.regCount := by
      rw [low_argField]
      exact Nat.lt_succ_of_le (hindex rfl)
    exact ⟨_, hd.trans (shapeR_of_high (extractLsb'_of_masked harg rfl) hlow), rfl⟩
  · exact ⟨.pbegin, decode_of_shapeN_row (op := 0x10) hmask rfl, rfl⟩
  · exact ⟨_, decode_of_shapeW_row (op := 0x11) (mk := .pbeginm) hmask rfl, rfl⟩
  · exact ⟨_, decode_of_shapeB_row (op := 0x12) (mk := .data) hmask rfl, rfl⟩
  · exact ⟨.pend, decode_of_shapeN_row (op := 0x13) hmask rfl, rfl⟩
  · exact ⟨.send, decode_of_shapeN_row (op := 0x14) hmask rfl, rfl⟩
  · exact ⟨_, decode_of_shapeW_row (op := 0x20) (mk := .ldsizel) hmask rfl, rfl⟩
  · exact ⟨_, decode_of_shapeW_row (op := 0x21) (mk := .ldsizeh) hmask rfl, rfl⟩
  · exact ⟨_, decode_of_shapeW_row (op := 0x22) (mk := .ldpcrc) hmask rfl, rfl⟩
  · exact ⟨_, decode_of_shapeW_row (op := 0x23) (mk := .ldcrc) hmask rfl, rfl⟩
  · exact ⟨_, decode_of_shapeW_row (op := 0x24) (mk := .chkpart) hmask rfl, rfl⟩

/-- The rows that spell one word have the mnemonic of the one command it decodes to. -/
theorem row_unique {w : CmdWord} {row row' : OpcodeRow} (hrow : row ∈ opcodeMap) (h : row.spelledBy w = true)
    (hrow' : row' ∈ opcodeMap) (h' : row'.spelledBy w = true) : row = row' := by
  obtain ⟨i, hi, hname⟩ := exists_decode_of_row hrow h
  obtain ⟨j, hj, hname'⟩ := exists_decode_of_row hrow' h'
  obtain rfl : i = j := Decoded.cmd.inj (hi.symm.trans hj)
  exact rows_eq_of_mnemonic row hrow row' hrow' (hname.symm.trans hname')

/-- Settles O3: the row of a command spells its words, and the word a row spells decodes to a command of it. -/
theorem opcodeMapDecidesTheCommand : Obligations.OpcodeMapDecidesTheCommand := by
  intro w
  refine ⟨fun row hrow => ⟨?_, exists_decode_of_row hrow⟩, fun i hi => ?_, ?_, fun hnone => ?_⟩
  · rintro ⟨i, hi, hname⟩
    obtain ⟨row', hrow', hname', h⟩ := exists_row_of_decode hi
    rwa [rows_eq_of_mnemonic row hrow row' hrow' (hname.symm.trans hname'.symm)]
  · obtain ⟨-, hop, harg⟩ := fields_of_decodeFields hi
    exact ⟨hop, harg⟩
  · rw [← List.toFinset_card_of_nodup (List.Nodup.filter _ (by decide)), Finset.card_le_one]
    intro row hrow row' hrow'
    obtain ⟨hmem, h⟩ := List.mem_filter.1 (List.mem_toFinset.1 hrow)
    obtain ⟨hmem', h'⟩ := List.mem_filter.1 (List.mem_toFinset.1 hrow')
    exact row_unique hmem h hmem' h'
  · refine exists_illegal fun i hi => ?_
    obtain ⟨row, hrow, -, h⟩ := exists_row_of_decode hi
    exact absurd h (by simp [hnone row hrow])

/-! ## Reserved opcodes (R87) -/

theorem decodeFields_reserved {op : Byte} (h : op ∉ legalOpcodes) (arg : Word) :
    decodeFields op arg = .illegal .reservedOpcode := by
  simp only [legalOpcodes, List.mem_cons, List.not_mem_nil, or_false, not_or] at h
  simp only [decodeFields, h, if_false]

/-- Every opcode of the map has a command, with the operand 0. -/
theorem exists_decodeFields_zero {op : Byte} (h : op ∈ legalOpcodes) : ∃ i, decodeFields op 0 = .cmd i := by
  fin_cases h <;> exact ⟨_, rfl⟩

/-- The ranges of R87. -/
def isReserved (op : Byte) : Bool :=
  op.toNat == 0 || (4 ≤ op.toNat && op.toNat ≤ 0x0F) || (0x15 ≤ op.toNat && op.toNat ≤ 0x1F) || 0x25 ≤ op.toNat

/-- The ranges of R87 are the opcodes outside the map. -/
theorem isReserved_iff (op : Byte) : isReserved op = true ↔ op ∉ legalOpcodes := by
  simp only [isReserved, legalOpcodes, List.mem_cons, List.not_mem_nil, or_false, Bool.or_eq_true, Bool.and_eq_true,
    beq_iff_eq, decide_eq_true_eq]
  bv_omega

theorem isReserved_of_ge {n : Nat} (h : 0x25 ≤ n) (hn : n < 256) : isReserved (BitVec.ofNat 8 n) = true := by
  have hnat : (BitVec.ofNat 8 n).toNat = n := BitVec.toNat_ofNat n 8 |>.trans (Nat.mod_eq_of_lt hn)
  simp [isReserved, hnat, h]

/-- 24 of the opcodes below 0x25, and every one from there on. -/
theorem reserved_count : ((List.range 256).filter fun n => isReserved (BitVec.ofNat 8 n)).length = 243 := by
  have low : ((List.range 0x25).filter fun n => isReserved (BitVec.ofNat 8 n)).length = 24 := by decide
  have high : ((List.range 219).map (0x25 + ·)).filter (fun n => isReserved (BitVec.ofNat 8 n)) =
      (List.range 219).map (0x25 + ·) := by
    refine List.filter_eq_self.2 fun n hn => ?_
    obtain ⟨k, hk, rfl⟩ := List.mem_map.1 hn
    exact isReserved_of_ge (Nat.le_add_right _ _) (by have := List.mem_range.1 hk; omega)
  rw [show 256 = 0x25 + 219 from rfl, List.range_add, List.filter_append, List.length_append, low, high,
    List.length_map, List.length_range]

/-- Settles O4. -/
theorem reservedOpcodesAreIllegal : Obligations.ReservedOpcodesAreIllegal := by
  refine ⟨fun op arg (h : isReserved op = true) => ?_, fun op (h : isReserved op = false) => ?_,
    reserved_count, by decide⟩
  · exact (decode_cmdWord op arg).trans (decodeFields_reserved ((isReserved_iff op).1 h) arg)
  · have hlegal : op ∈ legalOpcodes := by
      by_contra hop
      simp [(isReserved_iff op).2 hop] at h
    obtain ⟨i, hi⟩ := exists_decodeFields_zero hlegal
    exact ⟨0, i, (decode_cmdWord op 0).trans hi⟩

/-! ## Operand shapes (R81, R88, R210) -/

/-- Settles O5: an operand that breaks its shape gives no command, and an illegal word raises or is discarded. -/
theorem illegalEncodingsRaiseOrAreDiscarded : Obligations.IllegalEncodingsRaiseOrAreDiscarded := by
  have illegalOf {op : Byte} {arg : Word} (h : ∀ i, decodeFields op arg ≠ .cmd i) :
      ∃ why, decode (op ++ arg) = .illegal why :=
    exists_illegal fun i hi => h i ((decode_cmdWord op arg).symm.trans hi)
  refine ⟨fun op arg hop harg => ?_, fun arg harg => ?_, fun op arg hop harg => ?_, fun arg harg => ?_,
    fun w why s h => ⟨fun hp => ?_, fun hp => ?_⟩⟩
  · refine illegalOf fun i hi => harg ?_
    fin_cases hop <;> exact (shapeN_cmd hi).1
  · exact illegalOf fun i hi => harg (shapeF_cmd hi).1
  · refine illegalOf fun i hi => harg ?_
    fin_cases hop
    · exact (shapeR_cmd hi).1
    · exact (shapeB_cmd hi).1
  · refine decode_rdreg_reserved (harg.trans_le ?_)
    rw [BitVec.extractLsb'_toNat, Nat.shiftRight_zero]
    exact Nat.mod_le _ _
  · rw [step_presented_illegal h, if_neg hp]
  · rw [step_presented_illegal h, if_pos hp]

end Sys2Proof.Machine

/-!
PROOF. The step statements of 30_encoding.md: the order of tests (R90, R91), one response for each word (R84, R85), and
the pseudo-instruction `LDSIZE` (R93).
-/

namespace Sys2Proof.Machine

/-! ## The phase legality table (R90) -/

/-- R90's row of a command. -/
def phaseRow (i : Instr) : Phase → Admission :=
  match i with
  | .sinit => anyPhase
  | .rdreg _ => anyPhase
  | .cfg _ => idleOnly
  | .pbegin => idleOnly
  | .pbeginm _ => idleOnly
  | .send => endOfStream
  | .data _ => bodyOnly
  | .pend => bodyOnly
  | .ldsizel _ => bodyOnly
  | .ldsizeh _ => bodyOnly
  | .ldpcrc _ => bodyOnly
  | .ldcrc _ => bodyOnly
  | .chkpart _ => bodyOnly

/-- A command's own rule, what it does once its row admits it. -/
def ownRule (i : Instr) : Block → Reply :=
  match i with
  | .sinit => fun s => respond codeOk 0 (newSession s)
  | .cfg f => fun s => respond codeOk 0 (setSieve f s)
  | .rdreg r => readView r
  | .pbegin => fun s => respond codeOk 0 (openPart 0 s)
  | .pbeginm n => fun s => respond codeOk 0 (openPart n (setMultipart s))
  | .data b => runData b
  | .pend => runPend
  | .send => runSend
  | .ldsizel w => fun s => respond codeOk 0 (loadSize (withLowHalf s.expSize w) s)
  | .ldsizeh w => fun s => respond codeOk 0 (loadSize (withHighHalf s.expSize w) s)
  | .ldpcrc w => fun s => respond codeOk 0 (loadPartCrc w s)
  | .ldcrc w => fun s => respond codeOk 0 (loadSessCrc w s)
  | .chkpart n => runChkpart n

/-- R91: every command is its own rule behind its row of R90. -/
theorem commandReply_eq_guarded (i : Instr) (s : Block) : commandReply i s = guarded (phaseRow i) (ownRule i) s := by
  cases i with
  | rdreg r => exact (guarded_run (anyPhase_run _)).symm
  | sinit | cfg | pbegin | pbeginm | data | pend | send | ldsizel | ldsizeh | ldpcrc | ldcrc | chkpart => rfl

theorem idleOnly_raises {p : Phase} (hp : p ≠ .fault) (h : p ≠ .idle) : idleOnly p = .raises .proto := by
  revert hp h
  cases p <;> decide

theorem bodyOnly_raises {p : Phase} (hp : p ≠ .fault) (h : p ≠ .body) : bodyOnly p = .raises .proto := by
  revert hp h
  cases p <;> decide

theorem endOfStream_raises {p : Phase} (hp : p ≠ .fault) (h : p ≠ .idle) :
    endOfStream p = .raises (if p = .body then .trunc else .proto) := by
  revert hp h
  cases p <;> decide

theorem phaseRow_run {i : Instr} {p : Phase} (h : p ∈ legalPhases i) : phaseRow i p = .run := by
  cases i with
  | sinit | rdreg => exact anyPhase_run p
  | cfg | pbegin | pbeginm | send | data | pend | ldsizel | ldsizeh | ldpcrc | ldcrc | chkpart =>
    obtain rfl := List.mem_singleton.1 h
    rfl

theorem phaseRow_raises {i : Instr} {p : Phase} (hp : p ≠ .fault) (h : p ∉ legalPhases i) :
    phaseRow i p = .raises (if i = .send ∧ p = .body then .trunc else .proto) := by
  cases i with
  | sinit | rdreg => exact absurd (by cases p <;> simp [legalPhases]) h
  | cfg | pbegin | pbeginm =>
    rw [if_neg (by simp)]
    exact idleOnly_raises hp fun hi => h (List.mem_singleton.2 hi)
  | data | pend | ldsizel | ldsizeh | ldpcrc | ldcrc | chkpart =>
    rw [if_neg (by simp)]
    exact bodyOnly_raises hp fun hi => h (List.mem_singleton.2 hi)
  | send =>
    simp only [true_and]
    exact endOfStream_raises hp fun hi => h (List.mem_singleton.2 hi)

theorem phaseRow_fault {i : Instr} (hsinit : i ≠ .sinit) (hrdreg : ∀ r, i ≠ .rdreg r) :
    phaseRow i .fault = .discards := by
  cases i with
  | sinit => exact absurd rfl hsinit
  | rdreg r => exact absurd rfl (hrdreg r)
  | cfg | pbegin | pbeginm | data | pend | send | ldsizel | ldsizeh | ldpcrc | ldcrc | chkpart => rfl

/-! ## What a command's own rule answers (R85) -/

/-- The answer is none of the four that the tests before a command's own rule give (R91). -/
def RanReply (r : Reply) : Prop := rspCode r.2 ∉ ([0x01, 0x02, 0x03, 0x7F] : List Byte)

theorem ranReply_respond (v : Word) (b : Block) : RanReply (respond codeOk v b) := by
  rw [RanReply, respond_snd, rspCode_rspWord]
  decide

theorem ranReply_raise {e : ErrorCause} (h : e ∉ ([.illegal, .proto, .trunc] : List ErrorCause)) (b : Block) :
    RanReply (raise e b) := by
  rw [RanReply, raise_snd, rspCode_rspWord]
  revert h
  cases e <;> decide

theorem runData_ranReply (b : Byte) (s : Block) : RanReply (runData b s) := by
  rcases runData_cases b s with ⟨-, h⟩ | ⟨v, -, -, h⟩ | ⟨v, -, -, h⟩ <;> rw [h]
  · exact ranReply_respond _ _
  · exact ranReply_raise (by decide) _
  · exact ranReply_respond _ _

theorem runPend_ranReply (s : Block) : RanReply (runPend s) := by
  unfold runPend
  split
  · exact ranReply_raise (by decide) _
  · rcases validatePart_cases (countPart s) with ⟨-, h⟩ | ⟨-, -, h⟩ | ⟨-, -, h⟩ <;> rw [h]
    · exact ranReply_raise (by decide) _
    · exact ranReply_raise (by decide) _
    · exact ranReply_respond _ _

theorem runSend_ranReply (s : Block) : RanReply (runSend s) := by
  unfold runSend
  split
  · exact ranReply_raise (by decide) _
  · rcases validateSession_cases s with ⟨-, -, h⟩ | ⟨-, h⟩ <;> rw [h]
    · exact ranReply_raise (by decide) _
    · exact ranReply_respond _ _

theorem runChkpart_ranReply (n : Word) (s : Block) : RanReply (runChkpart n s) := by
  unfold runChkpart
  split
  · exact ranReply_respond _ _
  · exact ranReply_raise (by decide) _

theorem ownRule_ranReply {i : Instr} (hwf : i.wellFormed = true) (s : Block) : RanReply (ownRule i s) := by
  cases i with
  | sinit | cfg | pbegin | pbeginm | ldsizel | ldsizeh | ldpcrc | ldcrc => exact ranReply_respond _ _
  | rdreg r =>
    obtain ⟨v, hv⟩ := regView_of_lt (of_decide_eq_true hwf) s
    rw [ownRule, readView_of_view hv]
    exact ranReply_respond _ _
  | data b => exact runData_ranReply b s
  | pend => exact runPend_ranReply s
  | send => exact runSend_ranReply s
  | chkpart n => exact runChkpart_ranReply n s

/-! ## The step on one word (R83, R91) -/

theorem step_presented_cmd {w : CmdWord} {i : Instr} (h : decode w = .cmd i) (s : State) :
    step (presented w s) = exec i s := by
  rw [step_presented, runWord_cmd h]

/-- Settles O7. -/
theorem stepRunsTheDecodedCommand : Obligations.StepRunsTheDecodedCommand := by
  intro s w ms i hport hdecode
  rw [← step_presented_cmd hdecode, ← eq_presented hport]

/-- A command its row refuses, outside FAULT (R90, R211, R212). -/
theorem exec_of_not_legal {i : Instr} {s : State} (hp : s.phase ≠ .fault) (h : s.phase ∉ legalPhases i) :
    exec i s = .next (afterError (if i = .send ∧ s.phase = .body then 0x03 else 0x02) s) := by
  have hreply : commandReply i s.toBlock =
      raise (if i = .send ∧ s.phase = .body then .trunc else .proto) s.toBlock := by
    rw [commandReply_eq_guarded, guarded_raises (phaseRow_raises hp h)]
  rw [exec_eq_answered, answered_of_raise hreply, apply_ite causeCode]
  rfl

/-- FAULT discards every command but `SINIT` and `RDREG` (R206). -/
theorem exec_of_fault {i : Instr} {s : State} (hp : s.phase = .fault) (hsinit : i ≠ .sinit)
    (hrdreg : ∀ r, i ≠ .rdreg r) : exec i s = .next (afterDiscard s) := by
  have hreply : commandReply i s.toBlock = discard s.toBlock := by
    rw [commandReply_eq_guarded, guarded_discards (by rw [hp, phaseRow_fault hsinit hrdreg])]
  rw [exec_eq_answered, answered_of_discard hreply]

theorem commandReply_of_legal {i : Instr} {s : Block} (h : s.phase ∈ legalPhases i) :
    commandReply i s = ownRule i s := by
  rw [commandReply_eq_guarded, guarded_run (phaseRow_run h)]

/-- Settles O8, by the row of the decoded command in the table of R90. -/
theorem dispatchFollowsThePhaseTable : Obligations.DispatchFollowsThePhaseTable := by
  intro s w
  refine ⟨fun hp => ⟨fun h => step_presented_cmd h s, fun i v h hv => ?_, fun hsinit hrdreg => ?_⟩,
    fun hp => ⟨fun why h => ?_, fun i h hillegal => ?_, fun i h hlegal => ⟨step_presented_cmd h s, ?_⟩⟩⟩
  · rw [step_presented_cmd h, exec_rdreg_of_view hv]
  · cases h : decode w with
    | cmd i =>
      rw [h] at hsinit hrdreg
      rw [step_presented_cmd h]
      exact exec_of_fault hp (fun hi => hsinit (congrArg _ hi)) fun r hi => hrdreg r (congrArg _ hi)
    | illegal why => rw [step_presented_illegal h, if_pos hp]
  · rw [step_presented_illegal h, if_neg hp]
  · rw [step_presented_cmd h, exec_of_not_legal hp hillegal]
  · refine ⟨_, _, exec_eq_answered i s, answered_rspPort s _, ?_⟩
    rw [commandReply_of_legal hlegal]
    exact ownRule_ranReply (encodeOfDecode w i h).1 s.toBlock

/-! ## One response for each word (R84, R85) -/

/-- The three classes of R85 for a reply `r` from the elements `s`. -/
theorem response_class_of_effect {s : Block} {i : Instr} {r : Reply} (h : CommandEffect s i r) :
    (rspCode r.2 = 0x00 ∧ (r.1.phase = .fault → s.phase = .fault ∧ r.1.cause = s.cause)) ∨
    (1 ≤ (rspCode r.2).toNat ∧ (rspCode r.2).toNat ≤ 9 ∧ rspVal r.2 = 0 ∧ s.phase ≠ .fault ∧ r.1.phase = .fault ∧
      r.1.cause = rspCode r.2) ∨
    (rspCode r.2 = 0x7F ∧ rspVal r.2 = 0 ∧ s.phase = .fault ∧ r.1 = s) := by
  have completed {v : Word} {b : Block} (hb : b.phase = .fault → s.phase = .fault ∧ b.cause = s.cause) :
      rspCode (respond codeOk v b).2 = 0x00 ∧
        ((respond codeOk v b).1.phase = .fault → s.phase = .fault ∧ (respond codeOk v b).1.cause = s.cause) :=
    ⟨rspCode_rspWord _ _, hb⟩
  have raised {e : ErrorCause} {b : Block} (hp : s.phase ≠ .fault) :
      1 ≤ (rspCode (raise e b).2).toNat ∧ (rspCode (raise e b).2).toNat ≤ 9 ∧ rspVal (raise e b).2 = 0 ∧
        s.phase ≠ .fault ∧ (raise e b).1.phase = .fault ∧ (raise e b).1.cause = rspCode (raise e b).2 := by
    rw [raise_snd, raise_fst, rspCode_rspWord, rspVal_rspWord]
    exact ⟨by cases e <;> decide, causeCode_le e, rfl, hp, rfl, rfl⟩
  cases h with
  | discarded _ hp => exact .inr (.inr ⟨rspCode_rspWord _ _, rspVal_rspWord _ _, hp, rfl⟩)
  | raised _ hp => exact .inr (.inl (raised hp))
  | partRejected _ hp => exact .inr (.inl (raised (by simp [hp])))
  | viewed | numberChecked => exact .inl (completed fun hf => ⟨hf, rfl⟩)
  | began | opened | openedNumbered | partClosed | sessionClosed => exact .inl (completed (by simp))
  | configured | held | emitted | lowSizeLoaded | highSizeLoaded | partCrcLoaded | sessCrcLoaded =>
    exact .inl (completed (by simp))

/-- Settles O9: the word's reply is one of the ways a command can end. -/
theorem everyWordIsAnsweredOnce : Obligations.EveryWordIsAnsweredOnce := by
  intro s w
  obtain ⟨i, heffect⟩ := wordReply_effect w s.toBlock
  exact ⟨answered (wordReply w) s, (wordReply w s.toBlock).2, by rw [step_presented, runWord_eq_answered], rfl, rfl,
    (append40_fields _).symm, response_class_of_effect heffect⟩

/-! ## The pseudo-instruction `LDSIZE` (R93) -/

/-- R160: the next word on the port is `LDSIZEL w`. -/
theorem step_ldsizel_of_body {s : State} {w : Word} {ms : List HostMove} (hbody : s.phase = .body)
    (hport : s.cmdPort = .command (encode (.ldsizel w)) :: ms) :
    step s = .next (afterOk 0 { s with cmdPort := ms, expSize := withLowHalf s.expSize w }) := by
  rw [stepRunsTheDecodedCommand s _ ms _ hport (decodeOfEncode _ rfl), exec_eq_answered]
  exact congrArg _ (answered_of_respond (commandReply_of_legal (List.mem_singleton.2 hbody)))

/-- R161: the next word on the port is `LDSIZEH w`. -/
theorem step_ldsizeh_of_body {s : State} {w : Word} {ms : List HostMove} (hbody : s.phase = .body)
    (hport : s.cmdPort = .command (encode (.ldsizeh w)) :: ms) :
    step s = .next (afterOk 0 { s with cmdPort := ms, expSize := withHighHalf s.expSize w }) := by
  rw [stepRunsTheDecodedCommand s _ ms _ hport (decodeOfEncode _ rfl), exec_eq_answered]
  exact congrArg _ (answered_of_respond (commandReply_of_legal (List.mem_singleton.2 hbody)))

/-- Both halves replaced leave nothing of the old value. -/
theorem withHighHalf_withLowHalf (u v : DWord) : withHighHalf (withLowHalf u (lowHalf v)) (highHalf v) = v :=
  eq_of_halves (by rw [lowHalf_withHighHalf, lowHalf_withLowHalf]) (highHalf_withHighHalf _ _)

/-- Settles O38: each half is one step, and together they replace the whole. -/
theorem ldsizeReplacesTheWholeSize : Obligations.LdsizeReplacesTheWholeSize := by
  intro v s rest hbody hport
  have hwords : s.cmdPort = .command (encode (.ldsizel (lowHalf v))) ::
      .command (encode (.ldsizeh (highHalf v))) :: rest := hport
  rw [runs_succ 1 (step_ldsizel_of_body hbody hwords)]
  refine (runs_succ 0 (step_ldsizeh_of_body ?_ rfl)).trans ?_
  · exact hbody
  · simp only [afterOk, runs_zero, withHighHalf_withLowHalf, List.append_assoc]
    rfl

end Sys2Proof.Machine

/-!
PROOF. The statements of 40_control.md: `SINIT` (R110) and `CFG` (R111).
-/

namespace Sys2Proof.Machine

/-- `SINIT` on the machine, by its own rule in every phase. -/
theorem exec_sinit (s : State) : exec .sinit s = .next (afterOk 0 { s with toBlock := newSession s.toBlock }) := by
  rw [exec_eq_answered]
  exact congrArg _ (answered_of_respond (commandReply_sinit s.toBlock))

/-- Settles O20: the new session's elements are the listed ones, and an operand of shape N is 0. -/
theorem sinitBeginsASession : Obligations.SinitBeginsASession := by
  obtain ⟨hshapeN, -⟩ := illegalEncodingsRaiseOrAreDiscarded
  refine ⟨decodeOfEncode .sinit rfl, fun s => ⟨exec_sinit s, fun arg harg => ?_⟩⟩
  obtain ⟨why, hwhy⟩ := hshapeN 0x01 arg (by decide) harg
  exact step_presented_illegal hwhy s

/-- `CFG f` on the machine where its row of R90 admits it. -/
theorem exec_cfg_of_idle {s : State} (f : Bool) (h : s.phase = .idle) :
    exec (.cfg f) s = .next (afterOk 0 { s with sieveEn := f }) := by
  rw [exec_eq_answered]
  exact congrArg _ (answered_of_respond (commandReply_of_legal (List.mem_singleton.2 h)))

/-- Settles O21: `CFG`'s row of R90 phase by phase, and an operand of shape F has bits 31:1 clear. -/
theorem cfgSetsTheSieveOption : Obligations.CfgSetsTheSieveOption := by
  obtain ⟨-, hshapeF, -⟩ := illegalEncodingsRaiseOrAreDiscarded
  refine ⟨decodeOfEncode (.cfg false) rfl, decodeOfEncode (.cfg true) rfl, fun s f =>
    ⟨exec_cfg_of_idle f, fun hphase => ?refused, fun hphase => ?fault, fun arg harg => ?malformed⟩⟩
  case refused =>
    obtain ⟨hfault, hillegal⟩ : s.phase ≠ .fault ∧ s.phase ∉ legalPhases (.cfg f) := by
      rcases hphase with h | h <;> simp [h, legalPhases]
    rw [exec_of_not_legal hfault hillegal, if_neg (by simp)]
  case fault => exact exec_of_fault hphase (by simp) (by simp)
  case malformed =>
    obtain ⟨why, hwhy⟩ := hshapeF arg harg
    exact step_presented_illegal hwhy s

end Sys2Proof.Machine

/-!
PROOF. The statements of 41_part_begin.md: `PBEGIN` (R130) and `PBEGINM` (R131).
-/

namespace Sys2Proof.Machine

/-- A command its row of R90 admits, whose own rule completes with the value `v`. -/
theorem exec_of_legal {i : Instr} {s : State} {v : Word} {b : Block} (hlegal : s.phase ∈ legalPhases i)
    (hrule : ownRule i s.toBlock = respond codeOk v b) :
    exec i s = .next (afterOk v { s with toBlock := b }) := by
  rw [exec_eq_answered]
  exact congrArg _ (answered_of_respond ((commandReply_of_legal hlegal).trans hrule))

/-- R90, R211: a command that runs in IDLE only, but for `SEND`, is E_PROTO inside a part and after the session. -/
theorem exec_proto_of_body_or_done {i : Instr} {s : State} (hrow : legalPhases i = [.idle]) (hsend : i ≠ .send)
    (hphase : s.phase = .body ∨ s.phase = .done) : exec i s = .next (afterError 0x02 s) := by
  obtain ⟨hfault, hidle⟩ : s.phase ≠ .fault ∧ s.phase ≠ .idle := by
    rcases hphase with h | h <;> simp [h]
  rw [exec_of_not_legal hfault (by rwa [hrow, List.mem_singleton]), if_neg fun h => hsend h.1]

theorem exec_pbegin_of_idle {s : State} (h : s.phase = .idle) :
    exec .pbegin s = .next (afterOk 0 { s with toBlock := openPart 0 s.toBlock }) :=
  exec_of_legal (List.mem_singleton.2 h) rfl

theorem exec_pbeginm_of_idle {s : State} (n : Word) (h : s.phase = .idle) :
    exec (.pbeginm n) s = .next (afterOk 0 { s with toBlock := openPart n (setMultipart s.toBlock) }) :=
  exec_of_legal (List.mem_singleton.2 h) rfl

/-- Settles O23: `PBEGIN`'s row of R90 phase by phase, and an operand of shape N is 0. -/
theorem pbeginOpensAFreshPart : Obligations.PbeginOpensAFreshPart := by
  obtain ⟨hshapeN, -⟩ := illegalEncodingsRaiseOrAreDiscarded
  refine ⟨decodeOfEncode .pbegin rfl, fun s => ⟨exec_pbegin_of_idle, exec_proto_of_body_or_done rfl (by simp),
    fun hfault => exec_of_fault hfault (by simp) (by simp), fun arg harg => ?malformed⟩⟩
  case malformed =>
    obtain ⟨why, hwhy⟩ := hshapeN 0x10 arg (by decide) harg
    exact step_presented_illegal hwhy s

/-- Settles O24: `PBEGINM`'s row of R90 phase by phase; every operand is a part number. -/
theorem pbeginmOpensANumberedPart : Obligations.PbeginmOpensANumberedPart := by
  intro n s
  exact ⟨decodeOfEncode (.pbeginm n) rfl, exec_pbeginm_of_idle n, exec_proto_of_body_or_done rfl (by simp),
    fun hfault => exec_of_fault hfault (by simp) (by simp)⟩

end Sys2Proof.Machine

/-!
SUPPORT. The sieve over a sequence (R141, R146, R150, R151), and `DATA` in BODY as the sieve's bytes fed to the block
(R140, R145).
-/

namespace Sys2Proof.Machine

/-! ## The two byte maps (R143) -/

theorem escapedByte_eq_sub (b : Byte) : escapedByte b = b - 106 := by
  simp only [escapedByte, Config.pShift, Config.pEscShift]
  bv_omega

theorem plainByte_toNat (b : Byte) : (plainByte b).toNat = (b.toNat + 214) % 256 := by
  simp only [plainByte, Config.pShift]
  bv_omega

theorem escapedByte_toNat (b : Byte) : (escapedByte b).toNat = (b.toNat + 150) % 256 := by
  rw [escapedByte_eq_sub]
  bv_omega

theorem plainByte_eq_ofNat (b : Byte) : plainByte b = BitVec.ofNat 8 ((b.toNat + 256 - 42) % 256) := by
  refine BitVec.eq_of_toNat_eq ?_
  rw [plainByte_toNat, BitVec.toNat_ofNat]
  omega

/-- Case 1 of R141 as it is written there, in two subtractions. -/
theorem escapedByte_eq_ofNat (b : Byte) :
    escapedByte b = BitVec.ofNat 8 (((b.toNat + 256 - 42) % 256 + 256 - 64) % 256) := by
  refine BitVec.eq_of_toNat_eq ?_
  rw [escapedByte_toNat, BitVec.toNat_ofNat]
  omega

/-- Case 1 in one subtraction (R143). -/
theorem escapedByte_eq_ofNat_sub (b : Byte) : escapedByte b = BitVec.ofNat 8 ((b.toNat + 256 - 106) % 256) := by
  refine BitVec.eq_of_toNat_eq ?_
  rw [escapedByte_toNat, BitVec.toNat_ofNat]
  omega

/-! ## The sieve over a sequence (R141, R146) -/

/-- Case 2 of R141 is the only one that emits nothing. -/
theorem sieve_fst_eq_none_iff (en esc : Bool) (b : Byte) :
    (sieve en esc b).1 = none ↔ en = true ∧ esc = false ∧ b = Config.pEscByte := by
  cases en with
  | false => simp [sieve_bypass]
  | true =>
    cases esc with
    | true => simp [sieve_escaped]
    | false =>
      by_cases hb : b = Config.pEscByte
      · simp [hb, sieve_marker]
      · simp [hb, sieve_plain]

@[simp] theorem sieveAll_nil (en esc : Bool) : sieveAll en esc [] = ([], esc) := rfl

@[simp] theorem sieveAll_cons (en esc : Bool) (b : Byte) (bs : List Byte) : sieveAll en esc (b :: bs) =
    ((sieve en esc b).1.toList ++ (sieveAll en (sieve en esc b).2 bs).1, (sieveAll en (sieve en esc b).2 bs).2) := rfl

/-- The escape state at the end of one line is that at the start of the next (R146). -/
theorem sieveAll_append (en esc : Bool) (as bs : List Byte) : sieveAll en esc (as ++ bs) =
    ((sieveAll en esc as).1 ++ (sieveAll en (sieveAll en esc as).2 bs).1,
      (sieveAll en (sieveAll en esc as).2 bs).2) := by
  induction as generalizing esc with
  | nil => rfl
  | cons a as ih => simp [ih]

/-- One input byte is one emitted byte or one escape marker. -/
theorem length_sieve_add_marker (en esc : Bool) (b : Byte) :
    (sieve en esc b).1.toList.length + (if en = true ∧ esc = false ∧ b = Config.pEscByte then 1 else 0) = 1 := by
  rw [← if_congr (sieve_fst_eq_none_iff en esc b) rfl rfl]
  cases (sieve en esc b).1 <;> simp

theorem length_sieveAll_add_markers (en esc : Bool) (bytes : List Byte) :
    (sieveAll en esc bytes).1.length + markersIn en esc bytes = bytes.length := by
  induction bytes generalizing esc with
  | nil => rfl
  | cons b bytes ih =>
    have hone := length_sieve_add_marker en esc b
    have hrest := ih (sieve en esc b).2
    rw [markersIn, sieveAll_cons, List.length_append, List.length_cons]
    omega

theorem length_sieveAll_le (en esc : Bool) (bytes : List Byte) : (sieveAll en esc bytes).1.length ≤ bytes.length :=
  Nat.le.intro (length_sieveAll_add_markers en esc bytes)

/-- In bypass no byte takes case 2 (R144). -/
theorem markersIn_bypass (esc : Bool) (bytes : List Byte) : markersIn false esc bytes = 0 := by
  induction bytes generalizing esc with
  | nil => rfl
  | cons b bytes ih => simp [markersIn, ih]

/-! ## The encoder and the sieve (R150) -/

theorem plainByte_add (x : Byte) : plainByte (x + Config.pShift) = x := BitVec.add_sub_cancel x _

theorem escapedByte_add (x : Byte) : escapedByte (x + Config.pShift + Config.pEscShift) = x := by
  simp only [escapedByte, Config.pShift, Config.pEscShift]
  bv_omega

/-- The one or two bytes that stand for `x` emit `x`: the marker is escaped, so a byte sent plain is no marker. -/
theorem sieveAll_encodeByte {escaped : List Byte} (hmarker : Config.pEscByte ∈ escaped) (x : Byte) :
    sieveAll true false (encodeByte escaped x) = ([x], false) := by
  unfold encodeByte
  split
  · simp [sieve_marker, sieve_escaped, escapedByte_add]
  · next hplain =>
    have hne : x + Config.pShift ≠ Config.pEscByte := fun heq => hplain (heq ▸ hmarker)
    simp [sieve_plain hne, plainByte_add]

theorem sieveAll_encodeBytes {escaped : List Byte} (hmarker : Config.pEscByte ∈ escaped) (bytes : List Byte) :
    sieveAll true false (encodeBytes escaped bytes) = (bytes, false) := by
  induction bytes with
  | nil => rfl
  | cons x bytes ih =>
    rw [encodeBytes] at ih ⊢
    rw [List.flatMap_cons, sieveAll_append, sieveAll_encodeByte hmarker, ih]
    rfl

/-! ## `DATA` in BODY (R140, R145) -/

theorem lenFull_eq_false_iff (s : Block) : lenFull s = false ↔ s.len ≠ 0xFFFFFFFFFFFFFFFF := by
  rw [lenFull, show BitVec.allOnes 64 = 0xFFFFFFFFFFFFFFFF by decide, beq_eq_false_iff_ne]

theorem lenFull_iff (s : Block) : lenFull s = true ↔ s.len = 0xFFFFFFFFFFFFFFFF := by
  rw [lenFull, show BitVec.allOnes 64 = 0xFFFFFFFFFFFFFFFF by decide, beq_iff_eq]

/-- The elements after the sieve has emitted `out` and left its flag at `esc`: both accumulators and the count take the
emitted bytes (R140). -/
def fed (out : List Byte) (esc : Bool) (s : Block) : Block :=
  { s with
    escPend := esc
    crcPartRaw := crcFold s.crcPartRaw out
    crcSessRaw := crcFold s.crcSessRaw out
    len := BitVec.ofNat 64 (s.len.toNat + out.length) }

theorem fed_len_toNat {out : List Byte} {s : Block} (esc : Bool) (hroom : s.len.toNat + out.length < 2 ^ 64) :
    (fed out esc s).len.toNat = s.len.toNat + out.length := by
  rw [fed, BitVec.toNat_ofNat, Nat.mod_eq_of_lt hroom]

theorem fed_nil (esc : Bool) (s : Block) : fed [] esc s = setEscape esc s := by
  simp [fed, setEscape]

theorem fed_singleton (v : Byte) (esc : Bool) (s : Block) : fed [v] esc s = emitByte v (setEscape esc s) := by
  have hlen : BitVec.ofNat 64 (s.len.toNat + 1) = s.len + 1 := by bv_omega
  simp [fed, emitByte, setEscape, hlen]

theorem fed_fed (out out' : List Byte) (esc esc' : Bool) (s : Block) :
    fed out' esc' (fed out esc s) = fed (out ++ out') esc' s := by
  have hlen : BitVec.ofNat 64 ((BitVec.ofNat 64 (s.len.toNat + out.length)).toNat + out'.length) =
      BitVec.ofNat 64 (s.len.toNat + (out ++ out').length) := by
    rw [List.length_append]
    bv_omega
  simp only [fed, crcFold_append, hlen]

/-- The machine after it has taken `DATA` commands off the port, answered them with `rs` and left the moves `ms`. -/
def afterData (out : List Byte) (esc : Bool) (rs : List RspWord) (ms : List HostMove) (s : State) : State where
  toBlock := fed out esc s.toBlock
  cmdPort := ms
  rspPort := s.rspPort ++ rs

theorem afterData_nil (s : State) : afterData [] s.escPend [] s.cmdPort s = s := by
  simp [afterData, fed_nil, setEscape]

theorem afterData_afterData (out out' : List Byte) (esc esc' : Bool) (rs rs' : List RspWord) (ms ms' : List HostMove)
    (s : State) :
    afterData out' esc' rs' ms' (afterData out esc rs ms s) = afterData (out ++ out') esc' (rs ++ rs') ms' s := by
  simp only [afterData, fed_fed, List.append_assoc]

/-- With room in `LEN`, `DATA` feeds the block what the sieve emits, and hands that to the host. -/
theorem runData_of_room {b : Byte} {s : Block}
    (hroom : s.len.toNat + (sieve s.sieveEn s.escPend b).1.toList.length < 2 ^ 64) :
    ∃ v, handedByte (rspWord codeOk v) = (sieve s.sieveEn s.escPend b).1 ∧ runData b s =
      respond codeOk v (fed (sieve s.sieveEn s.escPend b).1.toList (sieve s.sieveEn s.escPend b).2 s) := by
  rcases runData_cases b s with ⟨hnone, h⟩ | ⟨v, hsome, hfull, -⟩ | ⟨v, hsome, -, h⟩
  · exact ⟨0, by rw [hnone, handedByte_zero], by rw [h, hnone, Option.toList_none, fed_nil]⟩
  · rw [hsome, (lenFull_iff s).1 hfull] at hroom
    simp at hroom
  · exact ⟨emittedVal v, by rw [hsome, handedByte_emitted], by rw [h, hsome, Option.toList_some, fed_singleton]⟩

/-- One step on `DATA b`, the next word on the port, in BODY with room in `LEN`. -/
theorem step_data_of_room {b : Byte} {s : State} {ms : List HostMove} (hbody : s.phase = .body)
    (hroom : s.len.toNat + (sieve s.sieveEn s.escPend b).1.toList.length < 2 ^ 64)
    (hport : s.cmdPort = .command (dataWord b) :: ms) :
    ∃ r, handedByte r = (sieve s.sieveEn s.escPend b).1 ∧ step s = .next
      (afterData (sieve s.sieveEn s.escPend b).1.toList (sieve s.sieveEn s.escPend b).2 [r] ms s) := by
  obtain ⟨v, hv, hrule⟩ := runData_of_room hroom
  refine ⟨rspWord codeOk v, hv, ?_⟩
  rw [stepRunsTheDecodedCommand s _ ms _ hport (decodeOfEncode (.data b) rfl)]
  exact exec_of_legal (List.mem_singleton.2 hbody) hrule

/-- A run of `DATA` commands feeds the block the sieve's output over their bytes. -/
theorem runs_data_of_room {bytes : List Byte} {rest : List HostMove} {s : State} (hbody : s.phase = .body)
    (hroom : s.len.toNat + (sieveAll s.sieveEn s.escPend bytes).1.length < 2 ^ 64)
    (hport : s.cmdPort = bytes.map (fun b => .command (dataWord b)) ++ rest) :
    ∃ rs, rs.length = bytes.length ∧ rs.filterMap handedByte = (sieveAll s.sieveEn s.escPend bytes).1 ∧
      runs bytes.length s = .next
        (afterData (sieveAll s.sieveEn s.escPend bytes).1 (sieveAll s.sieveEn s.escPend bytes).2 rs rest s) := by
  induction bytes generalizing s with
  | nil =>
    obtain rfl : s.cmdPort = rest := hport
    exact ⟨[], rfl, rfl, congrArg _ (afterData_nil s).symm⟩
  | cons b bytes ih =>
    rw [sieveAll_cons, List.length_append] at hroom
    obtain ⟨r, hr, hstep⟩ := step_data_of_room hbody (by omega) hport
    have hroom' : (fed (sieve s.sieveEn s.escPend b).1.toList (sieve s.sieveEn s.escPend b).2 s.toBlock).len.toNat
        + (sieveAll s.sieveEn (sieve s.sieveEn s.escPend b).2 bytes).1.length < 2 ^ 64 := by
      rw [fed_len_toNat _ (by omega)]
      omega
    obtain ⟨rs, hcount, hbytes, hruns⟩ := ih (s := afterData _ _ [r] _ s) hbody hroom' rfl
    refine ⟨r :: rs, congrArg (· + 1) hcount, ?_, ?_⟩
    · rw [List.filterMap_cons, hr, hbytes, sieveAll_cons]
      cases (sieve s.sieveEn s.escPend b).1 <;> rfl
    · exact (runs_succ _ hstep).trans (hruns.trans (congrArg _ (afterData_afterData ..)))

end Sys2Proof.Machine

/-!
PROOF. The statements of 42_sieve_data.md: `DATA` (R140, R141, R145), runs of it (R146, R149 to R151), the byte maps
(R143) and the table form of the CRC step (R142).
-/

namespace Sys2Proof.Machine

/-! ## `DATA` (R140, R141, R145) -/

/-- The word of `DATA b` as a number (R140). -/
theorem dataWord_eq_add (b : Byte) : dataWord b = 0x1200000000 + b.setWidth 40 := by
  revert b
  decide

theorem emittedVal_eq_ofNat (v : Byte) : emittedVal v = BitVec.ofNat 32 (0x100 + v.toNat) := by
  rw [emittedVal, byteOperand_eq_ofNat]
  exact BitVec.ofNat_add_ofNat ..

/-- R90, R211: a command that runs in BODY only is E_PROTO before and after a part. -/
theorem exec_proto_of_idle_or_done {i : Instr} {s : State} (hrow : legalPhases i = [.body])
    (hphase : s.phase = .idle ∨ s.phase = .done) : exec i s = .next (afterError 0x02 s) := by
  obtain ⟨hfault, hbody⟩ : s.phase ≠ .fault ∧ s.phase ≠ .body := by
    rcases hphase with h | h <;> simp [h]
  rw [exec_of_not_legal hfault (by rwa [hrow, List.mem_singleton]), if_neg fun h => hbody h.2]

section Data

variable {b v : Byte} {p : Bool} {s : State}

theorem exec_data_of_emitted (hbody : s.phase = .body) (hroom : s.len ≠ 0xFFFFFFFFFFFFFFFF)
    (hsieve : sieve s.sieveEn s.escPend b = (some v, p)) :
    exec (.data b) s = .next (afterOk (BitVec.ofNat 32 (0x100 + v.toNat)) { s with
      escPend := p, crcPartRaw := crcStep s.crcPartRaw v, crcSessRaw := crcStep s.crcSessRaw v
      len := s.len + 1 }) := by
  have hrule : runData b s.toBlock = respond codeOk (emittedVal v) (emitByte v (setEscape p s.toBlock)) := by
    simp [runData, hsieve, (lenFull_eq_false_iff s.toBlock).2 hroom]
  rw [← emittedVal_eq_ofNat]
  exact exec_of_legal (List.mem_singleton.2 hbody) hrule

theorem exec_data_of_held (hbody : s.phase = .body) (hsieve : sieve s.sieveEn s.escPend b = (none, p)) :
    exec (.data b) s = .next (afterOk 0 { s with escPend := p }) := by
  have hrule : runData b s.toBlock = respond codeOk 0 (setEscape p s.toBlock) := by
    simp [runData, hsieve]
  exact exec_of_legal (List.mem_singleton.2 hbody) hrule

/-- R145: the byte that would be emitted does not fit. -/
theorem exec_data_of_full (hbody : s.phase = .body) (hfull : s.len = 0xFFFFFFFFFFFFFFFF)
    (hsieve : (sieve s.sieveEn s.escPend b).1 ≠ none) : exec (.data b) s = .next (afterError 0x09 s) := by
  have hreply : commandReply (.data b) s.toBlock = raise .overflow s.toBlock := by
    rw [commandReply_of_legal (List.mem_singleton.2 hbody)]
    rcases runData_cases b s.toBlock with ⟨hnone, -⟩ | ⟨-, -, -, h⟩ | ⟨-, -, hroom, -⟩
    · exact absurd hnone hsieve
    · exact h
    · exact absurd hfull ((lenFull_eq_false_iff s.toBlock).1 hroom)
  rw [exec_eq_answered, answered_of_raise hreply]
  rfl

end Data

/-- Settles O25: the four cases of the sieve, the overflow where one of them emits, and `DATA`'s row of R90. -/
theorem dataSievesCountsAndFeeds : Obligations.DataSievesCountsAndFeeds := by
  obtain ⟨-, -, hshapeB, -⟩ := illegalEncodingsRaiseOrAreDiscarded
  intro b s
  refine ⟨?word, fun hbody hroom hoff => ?bypass, fun hbody hroom hon hesc => ?escaped,
    fun hbody hon hesc hmarker => ?marker, fun hbody hroom hon hesc hplain => ?plain,
    fun hbody hfull hemits => ?overflow, exec_proto_of_idle_or_done rfl,
    fun hfault => exec_of_fault hfault (by simp) (by simp), fun arg harg => ?malformed⟩
  case word =>
    rw [← dataWord_eq_add]
    exact decodeOfEncode (.data b) rfl
  case bypass => exact exec_data_of_emitted hbody hroom (by rw [hoff, sieve_bypass])
  case escaped =>
    rw [← escapedByte_eq_ofNat]
    exact exec_data_of_emitted hbody hroom (by rw [hon, hesc, sieve_escaped])
  case marker =>
    refine exec_data_of_held hbody ?_
    rw [hon, hesc, hmarker]
    exact sieve_marker
  case plain =>
    rw [← plainByte_eq_ofNat]
    exact exec_data_of_emitted hbody hroom (by rw [hon, hesc, sieve_plain hplain])
  case overflow => exact exec_data_of_full hbody hfull fun h => hemits ((sieve_fst_eq_none_iff ..).1 h)
  case malformed =>
    obtain ⟨why, hwhy⟩ := hshapeB 0x12 arg (by decide) harg
    exact step_presented_illegal hwhy s

/-! ## Runs of `DATA` (R146, R149 to R151) -/

/-- Settles O27, by `runs_data_of_room`'s induction over the bytes. -/
theorem dataRunIsTheSieve : Obligations.DataRunIsTheSieve :=
  fun _ _ _ hbody hroom hport => runs_data_of_room hbody hroom hport

/-- Settles O28: the run is the sieve, and the sieve undoes the encoder. -/
theorem encodedBytesRoundTrip : Obligations.EncodedBytesRoundTrip := by
  intro escaped bytes rest s hmarker hbody hon hesc hroom hport
  have hsieve : sieveAll s.sieveEn s.escPend (encodeBytes escaped bytes) = (bytes, false) := by
    rw [hon, hesc, sieveAll_encodeBytes hmarker]
  obtain ⟨rs, -, hbytes, hruns⟩ := runs_data_of_room hbody (by rwa [hsieve]) hport
  rw [hsieve] at hbytes hruns
  exact ⟨_, rs, hruns, rfl, hbytes, rfl, hbody, rfl⟩

/-- Settles O29. -/
theorem outputLength : Obligations.OutputLength := by
  intro en esc bytes
  refine ⟨length_sieveAll_add_markers en esc bytes, ?_⟩
  rintro rfl
  have hcount := length_sieveAll_add_markers false esc bytes
  rwa [markersIn_bypass] at hcount

/-- A line that ends in a bare marker emits nothing for it and leaves an escape pending. -/
theorem sieveAll_ending_in_marker {esc : Bool} {before : List Byte} (h : (sieveAll true esc before).2 = false) :
    sieveAll true esc (before ++ [0x3D]) = ((sieveAll true esc before).1, true) := by
  rw [sieveAll_append, h]
  exact Prod.ext (List.append_nil _) rfl

/-- Settles O30: two runs of `DATA`, the second from the escape state that the first one's marker leaves. -/
theorem linesJoinUnderTheSieve : Obligations.LinesJoinUnderTheSieve := by
  intro before after b rest s hbody hon hbare hroom hport
  have hbefore := length_sieveAll_le true s.escPend before
  have hafter := length_sieveAll_le true false after
  have hfirst : sieveAll s.sieveEn s.escPend (before ++ [0x3D]) = ((sieveAll true s.escPend before).1, true) := by
    rw [hon, sieveAll_ending_in_marker hbare]
  have hsecond : (sieveAll s.sieveEn true (b :: after)).1 =
      BitVec.ofNat 8 ((b.toNat + 256 - 106) % 256) :: (sieveAll true false after).1 := by
    rw [hon, sieveAll_cons, sieve_escaped, escapedByte_eq_ofNat_sub]
    rfl
  have hroom₁ : s.len.toNat + (sieveAll true s.escPend before).1.length < 2 ^ 64 := by omega
  obtain ⟨r₁, -, hbytes₁, hruns₁⟩ := runs_data_of_room hbody (by rwa [hfirst]) hport
  rw [hfirst] at hbytes₁ hruns₁
  rw [List.length_append] at hruns₁
  have hroom₂ : (fed (sieveAll true s.escPend before).1 true s.toBlock).len.toNat
      + (sieveAll s.sieveEn true (b :: after)).1.length < 2 ^ 64 := by
    rw [fed_len_toNat true hroom₁, hsecond, List.length_cons]
    omega
  obtain ⟨r₂, -, hbytes₂, hruns₂⟩ :=
    runs_data_of_room (s := afterData _ true r₁ _ s) hbody hroom₂ rfl
  exact ⟨_, _, r₁, r₂, hruns₁, rfl, rfl, hbytes₁, hruns₂, rfl, rfl, hbytes₂.trans hsecond⟩

/-! ## The byte maps (R143) -/

/-- Settles O26: both maps subtract a constant modulo 256. -/
theorem sieveClosedForms : Obligations.SieveClosedForms := by
  refine ⟨fun b => ⟨plainByte_toNat b, escapedByte_toNat b, ?_, ?_, escapedByte_eq_sub b⟩, ?_, ?_⟩
  · rw [plainByte_toNat]
    split <;> omega
  · rw [escapedByte_toNat]
    split <;> omega
  · exact (Equiv.subRight Config.pShift).bijective
  · rw [show escapedByte = fun b => b - 106 from funext escapedByte_eq_sub]
    exact (Equiv.subRight (106 : Byte)).bijective

/-! ## The table form of the CRC step (R142) -/

/-- Rounds that shift out only zeros add no polynomial. -/
theorem crcRounds_of_low_zero {n : Nat} {r : Word} (h : ∀ i < n, r.getLsbD i = false) : crcRounds n r = r >>> n := by
  induction n generalizing r with
  | zero => rfl
  | succ k ih =>
    have hround : crcRound r = r >>> 1 := by rw [crcRound, h 0 k.succ_pos, if_neg (by simp)]
    rw [crcRounds, hround, ih fun i hi => ?_, ← BitVec.shiftRight_add, Nat.add_comm]
    rw [BitVec.getLsbD_ushiftRight, Nat.add_comm]
    exact h (i + 1) (Nat.succ_lt_succ hi)

theorem crcStep_zero (b : Byte) : crcStep 0 b = crcRounds 8 (b.setWidth 32) :=
  congrArg (crcRounds 8) BitVec.zero_xor

/-- Without its low byte a remainder is only shifted by the eight rounds of a step. -/
theorem crcRounds_without_low_byte (r : Word) :
    crcRounds 8 (r ^^^ (r.extractLsb' 0 8).setWidth 32) = r >>> 8 := by
  rw [crcRounds_of_low_zero]
  · refine BitVec.eq_of_getLsbD_eq fun i _ => ?_
    simp
  · intro i hi
    simp [hi, show i < 32 by omega]

/-- Settles O32: by linearity the rounds act apart on the remainder's high bits, which they only shift, and on its low
byte, which meets them as `v` does. -/
theorem crcStepIsTheTableStep : Obligations.CrcStepIsTheTableStep := by
  intro r v
  have hsplit : r ^^^ v.setWidth 32 =
      (r ^^^ (r.extractLsb' 0 8).setWidth 32) ^^^ ((r.extractLsb' 0 8).setWidth 32 ^^^ v.setWidth 32) := by
    rw [BitVec.xor_assoc, ← BitVec.xor_assoc ((r.extractLsb' 0 8).setWidth 32), BitVec.xor_self, BitVec.zero_xor]
  rw [crcStep_zero, crcStep, hsplit, crcRounds_xor, crcRounds_without_low_byte, BitVec.setWidth_xor]

end Sys2Proof.Machine

/-!
PROOF. The statements of 43_trailer.md: the loads (R160 to R163), `CHKPART` (R164) and the order of the loads (R165).
-/

namespace Sys2Proof.Machine

/-! ## Commands that run in BODY only (R90) -/

/-- A command its row of R90 admits, whose own rule raises an error with nothing else written. -/
theorem exec_of_legal_raise {i : Instr} {s : State} {e : ErrorCause} (hlegal : s.phase ∈ legalPhases i)
    (hrule : ownRule i s.toBlock = raise e s.toBlock) : exec i s = .next (afterError (causeCode e) s) := by
  rw [exec_eq_answered, answered_of_raise ((commandReply_of_legal hlegal).trans hrule)]

/-- R90's row of a command that runs in BODY only, in the other three phases (R206, R211). -/
theorem exec_outside_body {i : Instr} {s : State} (hrow : legalPhases i = [.body]) :
    (s.phase = .idle ∨ s.phase = .done → exec i s = .next (afterError 0x02 s)) ∧
    (s.phase = .fault → exec i s = .next (afterDiscard s)) := by
  refine ⟨exec_proto_of_idle_or_done hrow, fun hfault => exec_of_fault hfault ?_ ?_⟩
  · rintro rfl
    simp [legalPhases] at hrow
  · rintro r rfl
    simp [legalPhases] at hrow

/-! ## The halves of the expected size (R160, R161) -/

theorem append64_eq_ofNat (hi lo : Word) : (hi ++ lo : DWord) = BitVec.ofNat 64 (hi.toNat * 2 ^ 32 + lo.toNat) := by
  refine BitVec.eq_of_toNat_eq ?_
  rw [BitVec.toNat_append, ← Nat.shiftLeft_add_eq_or_of_lt lo.isLt, Nat.shiftLeft_eq, BitVec.toNat_ofNat]
  have hhi := hi.isLt
  have hlo := lo.isLt
  omega

theorem withLowHalf_eq_ofNat (v : DWord) (w : Word) :
    withLowHalf v w = BitVec.ofNat 64 (v.toNat / 2 ^ 32 * 2 ^ 32 + w.toNat) := by
  have hhigh : (highHalf v).toNat = v.toNat / 2 ^ 32 := by
    rw [highHalf_eq_ofNat, BitVec.toNat_ofNat]
    omega
  rw [withLowHalf, append64_eq_ofNat, hhigh]

theorem withHighHalf_eq_ofNat (v : DWord) (w : Word) :
    withHighHalf v w = BitVec.ofNat 64 (w.toNat * 2 ^ 32 + v.toNat % 2 ^ 32) := by
  have hlow : (lowHalf v).toNat = v.toNat % 2 ^ 32 := by
    rw [lowHalf_eq_ofNat, BitVec.toNat_ofNat, Nat.mod_mod]
  rw [withHighHalf, append64_eq_ofNat, hlow]

theorem withLowHalf_withLowHalf (v : DWord) (w w' : Word) : withLowHalf (withLowHalf v w) w' = withLowHalf v w' :=
  eq_of_halves (by simp) (by simp)

theorem withHighHalf_withHighHalf (v : DWord) (w w' : Word) :
    withHighHalf (withHighHalf v w) w' = withHighHalf v w' :=
  eq_of_halves (by simp) (by simp)

theorem withHighHalf_withLowHalf_comm (v : DWord) (lo hi : Word) :
    withHighHalf (withLowHalf v lo) hi = withLowHalf (withHighHalf v hi) lo :=
  eq_of_halves (by simp) (by simp)

/-! ## `DATA` in BODY with room in `LEN` (R140) -/

/-- The elements after `DATA b` in BODY with room in `LEN` (tied to `exec` by `exec_data_of_room`). -/
def sieved (b : Byte) (s : Block) : Block :=
  fed (sieve s.sieveEn s.escPend b).1.toList (sieve s.sieveEn s.escPend b).2 s

theorem exec_data_of_room (b : Byte) {s : State} (hbody : s.phase = .body) (hroom : s.len ≠ 0xFFFFFFFFFFFFFFFF) :
    ∃ v, exec (.data b) s = .next (afterOk v { s with toBlock := sieved b s.toBlock }) := by
  have hone : (sieve s.sieveEn s.escPend b).1.toList.length ≤ 1 := by
    cases (sieve s.sieveEn s.escPend b).1 <;> simp
  obtain ⟨v, -, hrule⟩ := runData_of_room (b := b) (s := s.toBlock) (by bv_omega)
  exact ⟨v, exec_of_legal (List.mem_singleton.2 hbody) hrule⟩

/-! ## The loads as writes to the elements (R160 to R163) -/

/-- `LoadWrite load write`: the load command `load w` does `write w` to the elements; tied to the model by
`exec_of_loadWrite`. -/
inductive LoadWrite : (Word → Instr) → (Word → Block → Block) → Prop
  /-- R160. -/
  | lowSize : LoadWrite .ldsizel fun w s => loadSize (withLowHalf s.expSize w) s
  /-- R161. -/
  | highSize : LoadWrite .ldsizeh fun w s => loadSize (withHighHalf s.expSize w) s
  /-- R162. -/
  | partCrc : LoadWrite .ldpcrc loadPartCrc
  /-- R163. -/
  | sessCrc : LoadWrite .ldcrc loadSessCrc

theorem exists_loadWrite {load : Word → Instr} (h : load ∈ [Instr.ldsizel, .ldsizeh, .ldpcrc, .ldcrc]) :
    ∃ write, LoadWrite load write := by
  simp only [List.mem_cons, List.not_mem_nil, or_false] at h
  rcases h with rfl | rfl | rfl | rfl
  · exact ⟨_, .lowSize⟩
  · exact ⟨_, .highSize⟩
  · exact ⟨_, .partCrc⟩
  · exact ⟨_, .sessCrc⟩

section Loads

variable {load other : Word → Instr} {write write' : Word → Block → Block}

theorem legalPhases_of_loadWrite (h : LoadWrite load write) (w : Word) : legalPhases (load w) = [.body] := by
  cases h <;> rfl

theorem ownRule_of_loadWrite (h : LoadWrite load write) (w : Word) (s : Block) :
    ownRule (load w) s = respond codeOk 0 (write w s) := by
  cases h <;> rfl

theorem exec_of_loadWrite (h : LoadWrite load write) (w : Word) {s : State} (hbody : s.phase = .body) :
    exec (load w) s = .next (afterOk 0 { s with toBlock := write w s.toBlock }) :=
  exec_of_legal (by rw [legalPhases_of_loadWrite h, hbody, List.mem_singleton]) (ownRule_of_loadWrite h w s.toBlock)

theorem write_phase (h : LoadWrite load write) (w : Word) (s : Block) : (write w s).phase = s.phase := by
  cases h <;> rfl

theorem write_len (h : LoadWrite load write) (w : Word) (s : Block) : (write w s).len = s.len := by
  cases h <;> rfl

/-- R165: the last value stands. -/
theorem write_write (h : LoadWrite load write) (first last : Word) (s : Block) :
    write last (write first s) = write last s := by
  cases h with
  | lowSize => exact congrArg (loadSize · s) (withLowHalf_withLowHalf s.expSize first last)
  | highSize => exact congrArg (loadSize · s) (withHighHalf_withHighHalf s.expSize first last)
  | partCrc | sessCrc => rfl

/-- Two different loads write different elements, or different halves of one. -/
theorem write_comm (h : LoadWrite load write) (h' : LoadWrite other write') {v w : Word}
    (hne : mnemonicOf (load v) ≠ mnemonicOf (other w)) (s : Block) :
    write' w (write v s) = write v (write' w s) := by
  cases h with
  | lowSize =>
    cases h' with
    | lowSize => exact absurd rfl hne
    | highSize => exact congrArg (loadSize · s) (withHighHalf_withLowHalf_comm s.expSize v w)
    | partCrc | sessCrc => rfl
  | highSize =>
    cases h' with
    | lowSize => exact congrArg (loadSize · s) (withHighHalf_withLowHalf_comm s.expSize w v).symm
    | highSize => exact absurd rfl hne
    | partCrc | sessCrc => rfl
  | partCrc =>
    cases h' with
    | partCrc => exact absurd rfl hne
    | lowSize | highSize | sessCrc => rfl
  | sessCrc =>
    cases h' with
    | sessCrc => exact absurd rfl hne
    | lowSize | highSize | partCrc => rfl

/-- `DATA` neither reads nor writes an expected value, and a load nothing else. -/
theorem write_sieved (h : LoadWrite load write) (w : Word) (b : Byte) (s : Block) :
    write w (sieved b s) = sieved b (write w s) := by
  cases h <;> rfl

end Loads

/-! ## The statements -/

/-- Settles O37: in BODY a load is its write and a `DATA` is `sieved`, which keep the phase, and the writes absorb or
commute. -/
theorem loadsRepeatAndInterleave : Obligations.LoadsRepeatAndInterleave := by
  intro s hbody
  refine ⟨fun load hload first last => ?last, fun load hload other hother v w hne => ?order,
    fun load hload w b hroom => ?data⟩
  all_goals obtain ⟨write, hwrite⟩ := exists_loadWrite hload
  case last =>
    exact ⟨_, _, _, exec_of_loadWrite hwrite first hbody,
      exec_of_loadWrite hwrite last ((write_phase hwrite first _).trans hbody), exec_of_loadWrite hwrite last hbody,
      write_write hwrite first last s.toBlock⟩
  case order =>
    obtain ⟨write', hwrite'⟩ := exists_loadWrite hother
    exact ⟨_, _, _, _, exec_of_loadWrite hwrite v hbody,
      exec_of_loadWrite hwrite' w ((write_phase hwrite v _).trans hbody), exec_of_loadWrite hwrite' w hbody,
      exec_of_loadWrite hwrite v ((write_phase hwrite' w _).trans hbody), write_comm hwrite hwrite' hne s.toBlock⟩
  case data =>
    obtain ⟨_, hdata⟩ := exec_data_of_room b hbody hroom
    obtain ⟨_, hdata'⟩ := exec_data_of_room b
      (s := afterOk 0 { s with toBlock := write w s.toBlock }) ((write_phase hwrite w _).trans hbody)
      (by rwa [afterOk, write_len hwrite])
    exact ⟨_, _, _, _, exec_of_loadWrite hwrite w hbody, hdata', hdata, exec_of_loadWrite hwrite w hbody,
      (write_sieved hwrite w b s.toBlock).symm⟩

/-- Settles O34: the two halves of the size as numbers, and the loads' row of R90. -/
theorem sizeHalvesLoad : Obligations.SizeHalvesLoad := by
  intro w s
  refine ⟨decodeOfEncode (.ldsizel w) rfl, decodeOfEncode (.ldsizeh w) rfl, fun hbody => ?low, fun hbody => ?high,
    fun i hi => exec_outside_body ?row⟩
  case low =>
    rw [← withLowHalf_eq_ofNat]
    exact exec_of_loadWrite .lowSize w hbody
  case high =>
    rw [← withHighHalf_eq_ofNat]
    exact exec_of_loadWrite .highSize w hbody
  case row =>
    rcases List.mem_pair.1 hi with rfl | rfl
    · exact legalPhases_of_loadWrite .lowSize w
    · exact legalPhases_of_loadWrite .highSize w

/-- Settles O35, by the two loads' writes and their row of R90. -/
theorem expectedCrcsLoad : Obligations.ExpectedCrcsLoad := by
  intro w s
  refine ⟨decodeOfEncode (.ldpcrc w) rfl, decodeOfEncode (.ldcrc w) rfl, exec_of_loadWrite .partCrc w,
    exec_of_loadWrite .sessCrc w, fun i hi => exec_outside_body ?row⟩
  case row =>
    rcases List.mem_pair.1 hi with rfl | rfl
    · exact legalPhases_of_loadWrite .partCrc w
    · exact legalPhases_of_loadWrite .sessCrc w

/-- Settles O36: the two branches of the comparison, and `CHKPART`'s row of R90. -/
theorem chkpartComparesTheNumber : Obligations.ChkpartComparesTheNumber := by
  intro n s
  exact ⟨decodeOfEncode (.chkpart n) rfl,
    fun hbody hn => exec_of_legal (List.mem_singleton.2 hbody) (if_pos hn),
    fun hbody hn => exec_of_legal_raise (e := .partOrder) (List.mem_singleton.2 hbody) (if_neg hn),
    exec_outside_body rfl⟩

end Sys2Proof.Machine

/-!
PROOF. The statements of 44_validate.md: `PEND` (R181) and `SEND` (R182, R183), and what holds once either has passed.
-/

namespace Sys2Proof.Machine

/-! ## Shared by the two commands -/

/-- A command its row of R90 admits, whose own rule raises after it has brought the elements to `b`. -/
theorem exec_of_legal_raise_at {i : Instr} {s : State} {e : ErrorCause} {b : Block}
    (hlegal : s.phase ∈ legalPhases i) (hrule : ownRule i s.toBlock = raise e b) :
    exec i s = .next (afterError (causeCode e) { s with toBlock := b }) := by
  rw [exec_eq_answered, answered_of_raise ((commandReply_of_legal hlegal).trans hrule)]

/-- R81, R88: a nonzero operand of `SINIT`, `PBEGIN`, `PEND` or `SEND`. -/
theorem step_presented_nonzero_operand {op : Byte} {arg : Word} (hop : op ∈ ([0x01, 0x10, 0x13, 0x14] : List Byte))
    (harg : arg ≠ 0) (s : State) :
    step (presented (op ++ arg) s) = .next (if s.phase = .fault then afterDiscard s else afterError 0x01 s) := by
  obtain ⟨hshapeN, -⟩ := illegalEncodingsRaiseOrAreDiscarded
  obtain ⟨why, hwhy⟩ := hshapeN op arg hop harg
  exact step_presented_illegal hwhy s

theorem flagWord_eq_ite (f : Bool) : flagWord f = if f then 1 else 0 := ofBool_setWidth f

/-! ## The branches of `PEND` (R181) -/

section Part

variable {s : Block}

/-- Step 1: the count has no room. -/
theorem runPend_of_full (hfull : s.parts = 0xFFFFFFFF) : runPend s = raise .overflow s := by
  have hflag : partsFull s = true := by
    rwa [← Bool.not_eq_false, partsFull_eq_false_iff, not_not]
  rw [runPend, if_pos hflag]

/-- Step 2: the part is counted. -/
theorem runPend_of_room (hroom : s.parts ≠ 0xFFFFFFFF) : runPend s = validatePart (countPart s) := by
  have hflag : partsFull s = false := (partsFull_eq_false_iff s).2 hroom
  rw [runPend, if_neg (by simp [hflag])]

/-- Step 3. -/
theorem validatePart_of_size_ne (hsize : s.len ≠ s.expSize) : validatePart s = raise .size s := by
  rcases validatePart_cases s with ⟨-, h⟩ | ⟨hsame, -⟩ | ⟨hsame, -⟩
  · exact h
  · exact absurd ((sizeDiffers_eq_false_iff s).1 hsame) hsize
  · exact absurd ((sizeDiffers_eq_false_iff s).1 hsame) hsize

/-- Step 4. -/
theorem validatePart_of_crc_ne (hsize : s.len = s.expSize) (hset : s.expPcrcV = true)
    (hcrc : s.crcPartRaw ^^^ 0xFFFFFFFF ≠ s.expPcrc) : validatePart s = raise .crcPart s := by
  rcases validatePart_cases s with ⟨hdiffers, -⟩ | ⟨-, -, h⟩ | ⟨-, hsame, -⟩
  · rw [(sizeDiffers_eq_false_iff s).2 hsize] at hdiffers
    cases hdiffers
  · exact h
  · exact absurd ((partCrcDiffers_eq_false_iff s).1 hsame hset) hcrc

/-- Steps 5 and 6. -/
theorem validatePart_of_valid (hsize : s.len = s.expSize)
    (hcrc : s.expPcrcV = true → s.crcPartRaw ^^^ 0xFFFFFFFF = s.expPcrc) :
    validatePart s = respond codeOk (if s.expPcrcV then 1 else 0) (setPhase .idle s) := by
  rw [validatePart, (sizeDiffers_eq_false_iff s).2 hsize, (partCrcDiffers_eq_false_iff s).2 hcrc, flagWord_eq_ite]
  rfl

end Part

/-! ## The branches of `SEND` (R182, R183) -/

theorem sessionCrcRuns_iff (s : Block) :
    sessionCrcRuns s = true ↔ (s.multipart = false ∨ s.parts = s.partNum) ∧ s.expCrcV = true := by
  rw [sessionCrcRuns, Bool.and_eq_true, sessionGate_iff]

/-- What a passed session check says, the form in which `CommandEffect` and `validateSession_cases` hold it. -/
theorem sessionCrc_passes_iff (s : Block) :
    ¬(sessionCrcRuns s = true ∧ sessionCrcDiffers s = true) ↔
      (sessionCrcRuns s = true → s.crcSessRaw ^^^ 0xFFFFFFFF = s.expCrc) := by
  rw [sessionCrcDiffers_iff, not_and, not_ne_iff]

section Session

variable {s : Block}

/-- Step 1. -/
theorem runSend_of_no_parts (hparts : s.parts = 0) : runSend s = raise .noParts s := if_pos hparts

/-- Step 3 with a difference. -/
theorem runSend_of_crc_ne (hparts : s.parts ≠ 0) (hruns : sessionCrcRuns s = true)
    (hcrc : s.crcSessRaw ^^^ 0xFFFFFFFF ≠ s.expCrc) : runSend s = raise .crcSess s := by
  rw [runSend, if_neg hparts]
  rcases validateSession_cases s with ⟨-, -, h⟩ | ⟨hpasses, -⟩
  · exact h
  · exact absurd ((sessionCrc_passes_iff s).1 hpasses hruns) hcrc

/-- Steps 4 and 5: the answer says whether the check ran. -/
theorem runSend_of_valid (hparts : s.parts ≠ 0)
    (hcrc : sessionCrcRuns s = true → s.crcSessRaw ^^^ 0xFFFFFFFF = s.expCrc) :
    runSend s = respond codeOk (if sessionCrcRuns s then 1 else 0) (setPhase .done s) := by
  rw [runSend, if_neg hparts, ← flagWord_eq_ite]
  rcases validateSession_cases s with ⟨hruns, hdiffers, -⟩ | ⟨-, h⟩
  · exact absurd ⟨hruns, hdiffers⟩ ((sessionCrc_passes_iff s).2 hcrc)
  · exact h

end Session

/-! ## The statements -/

/-- Settles O39: `PEND`'s branches in BODY in the order of R181, its row of R90, and an operand of shape N is 0. -/
theorem pendCountsAndValidates : Obligations.PendCountsAndValidates := by
  refine ⟨decodeOfEncode .pend rfl, fun s => ?_⟩
  intro counted crcWrong
  obtain ⟨hproto, hdiscard⟩ := exec_outside_body (i := .pend) (s := s) rfl
  have hlegal (hbody : s.phase = .body) : s.phase ∈ legalPhases .pend := List.mem_singleton.2 hbody
  refine ⟨fun hbody hfull => ?full, fun hbody hroom hsize => ?size, fun hbody hroom hsize hcrc => ?crc,
    fun hbody hroom hsize hcrc => ?valid, hproto, hdiscard,
    fun arg harg => step_presented_nonzero_operand (by decide) harg s⟩
  case full => exact exec_of_legal_raise (hlegal hbody) (runPend_of_full hfull)
  case size =>
    exact exec_of_legal_raise_at (hlegal hbody) ((runPend_of_room hroom).trans (validatePart_of_size_ne hsize))
  case crc =>
    obtain ⟨hset, hne⟩ := hcrc
    exact exec_of_legal_raise_at (hlegal hbody)
      ((runPend_of_room hroom).trans (validatePart_of_crc_ne hsize hset hne))
  case valid =>
    have hsame : s.expPcrcV = true → s.crcPartRaw ^^^ 0xFFFFFFFF = s.expPcrc :=
      fun hset => not_not.1 fun hne => hcrc ⟨hset, hne⟩
    exact exec_of_legal (hlegal hbody) ((runPend_of_room hroom).trans (validatePart_of_valid hsize hsame))

/-- Settles O40: `SEND`'s branches in IDLE in the order of R182, its row of R90, and an operand of shape N is 0. -/
theorem sendValidatesTheSession : Obligations.SendValidatesTheSession := by
  refine ⟨decodeOfEncode .send rfl, fun s => ?_⟩
  intro gate same
  have hlegal (hidle : s.phase = .idle) : s.phase ∈ legalPhases .send := List.mem_singleton.2 hidle
  have hruns : sessionCrcRuns s.toBlock = true ↔ gate ∧ s.expCrcV = true := sessionCrcRuns_iff s.toBlock
  refine ⟨fun hbody => ?body, fun hidle hparts => ?noParts, fun hidle hparts hgate hset hne => ?mismatch,
    fun hidle hparts hgate hset hsame => ?checked, fun hidle hparts hskips => ?unchecked, fun hdone => ?done,
    fun hfault => exec_of_fault hfault (by simp) (by simp),
    fun arg harg => step_presented_nonzero_operand (by decide) harg s⟩
  case body => rw [exec_of_not_legal (by simp [hbody]) (by simp [hbody, legalPhases]), if_pos ⟨rfl, hbody⟩]
  case noParts => exact exec_of_legal_raise (hlegal hidle) (runSend_of_no_parts hparts)
  case mismatch =>
    exact exec_of_legal_raise (hlegal hidle) (runSend_of_crc_ne hparts (hruns.2 ⟨hgate, hset⟩) hne)
  case checked =>
    have hran : sessionCrcRuns s.toBlock = true := hruns.2 ⟨hgate, hset⟩
    have hrule := runSend_of_valid hparts fun _ => hsame
    rw [if_pos hran] at hrule
    exact exec_of_legal (hlegal hidle) hrule
  case unchecked =>
    have hskipped : ¬sessionCrcRuns s.toBlock = true := fun h => hskips (hruns.1 h)
    have hrule := runSend_of_valid hparts fun h => absurd h hskipped
    rw [if_neg hskipped] at hrule
    exact exec_of_legal (hlegal hidle) hrule
  case done => rw [exec_of_not_legal (by simp [hdone]) (by simp [hdone, legalPhases]), if_neg (by simp [hdone])]

/-- Settles O43: of the ways `PEND` can end only the closed part is in IDLE. -/
theorem passedPartIsValid : Obligations.PassedPartIsValid := by
  intro s t h hidle
  obtain ⟨r, heffect, rfl⟩ := exec_effect h
  cases heffect with
  | discarded _ hfault =>
    have hkept : s.phase = .idle := hidle
    rw [hfault] at hkept
    cases hkept
  | raised | partRejected => cases hidle
  | partClosed v hbody hroom hsize hcrc =>
    exact ⟨(sizeDiffers_eq_false_iff s.toBlock).1 hsize, (partCrcDiffers_eq_false_iff s.toBlock).1 hcrc,
      parts_succ_toNat hroom, rfl⟩

/-- Settles O44: every way a command can end keeps PHASE or leaves it at another value than DONE, but for the closed
session. -/
theorem successMeansValidated : Obligations.SuccessMeansValidated := by
  intro i s t h hdone hbefore
  obtain ⟨r, heffect, rfl⟩ := exec_effect h
  cases heffect with
  | discarded | configured | viewed | held | emitted | lowSizeLoaded | highSizeLoaded | partCrcLoaded | sessCrcLoaded
  | numberChecked => exact absurd hdone hbefore
  | raised | partRejected | began | opened | openedNumbered | partClosed => cases hdone
  | sessionClosed v hidle hparts hcrc =>
    have hcounted : 1 ≤ s.parts.toNat := by bv_omega
    exact ⟨rfl, hidle, hcounted, fun hset hgate =>
      (sessionCrc_passes_iff s.toBlock).1 hcrc ((sessionCrcRuns_iff s.toBlock).2 ⟨hgate, hset⟩)⟩

end Sys2Proof.Machine

/-!
PROOF. The statements of 60_exceptions.md: entering FAULT (R204, R218), what stands still in it (R205, R206) and leaving
it (R207).
-/

namespace Sys2Proof.Machine

/-! ## Entering FAULT (R204) -/

theorem one_le_causeCode (e : ErrorCause) : 1 ≤ (causeCode e).toNat := by cases e <;> decide

/-- The two errors that find the part counted have the codes 5 and 6 (R200, R214, R215). -/
theorem causeCode_rejects_part_iff (e : ErrorCause) :
    causeCode e = 0x05 ∨ causeCode e = 0x06 ↔ e = .size ∨ e = .crcPart := by
  cases e <;> decide

/-- A command that takes the block into FAULT raises an error over the elements it found, or over those that `PEND` has
counted the part in. -/
theorem raise_of_effect {s : Block} {i : Instr} {r : Reply} (h : CommandEffect s i r) (hbefore : s.phase ≠ .fault)
    (hafter : r.1.phase = .fault) :
    (∃ e, ¬(e = .size ∨ e = .crcPart) ∧ r = raise e s) ∨
    (i = .pend ∧ ∃ e, (e = .size ∨ e = .crcPart) ∧ r = raise e (countPart s)) := by
  cases h with
  | raised _ _ hsize hcrc => exact .inl ⟨_, not_or.2 ⟨hsize, hcrc⟩, rfl⟩
  | partRejected e _ _ he => exact .inr ⟨rfl, e, he.imp And.left And.left, rfl⟩
  | discarded | configured | viewed | held | emitted | lowSizeLoaded | highSizeLoaded | partCrcLoaded | sessCrcLoaded
  | numberChecked => exact absurd hafter hbefore
  | began | opened | openedNumbered | partClosed | sessionClosed => cases hafter

/-- `raise_of_effect` for every word: an illegal one raises E_ILLEGAL (R210). -/
theorem raise_of_wordReply {w : CmdWord} {s : Block} (hbefore : s.phase ≠ .fault)
    (hafter : (wordReply w s).1.phase = .fault) :
    (∃ e, ¬(e = .size ∨ e = .crcPart) ∧ wordReply w s = raise e s) ∨
    (decode w = .cmd .pend ∧ ∃ e, (e = .size ∨ e = .crcPart) ∧ wordReply w s = raise e (countPart s)) := by
  cases hw : decode w with
  | cmd i =>
    rw [wordReply_cmd hw] at hafter ⊢
    rw [Decoded.cmd.injEq]
    exact raise_of_effect (commandReply_effect i s) hbefore hafter
  | illegal why =>
    rw [wordReply_illegal hw]
    exact .inl ⟨.illegal, by decide, illegal_of_not_fault hbefore⟩

/-- Settles O15: the code is the raised error's, and only `PEND`'s two checks raise over a counted part. -/
theorem errorsArePrecise : Obligations.ErrorsArePrecise := by
  intro w s t h hbefore hafter
  rw [toBlock_of_step_presented h] at hafter
  rw [step_presented, runWord_eq_answered, Host.Outcome.next.injEq] at h
  subst h
  rcases raise_of_wordReply hbefore hafter with ⟨e, he, hreply⟩ | ⟨hpend, e, he, hreply⟩
  · refine ⟨causeCode e, one_le_causeCode e, causeCode_le e, ?_⟩
    rw [answered_of_raise hreply, if_neg fun hcounted => he ((causeCode_rejects_part_iff e).1 hcounted.2)]
  · refine ⟨causeCode e, one_le_causeCode e, causeCode_le e, ?_⟩
    rw [answered_of_raise hreply, if_pos ⟨hpend, (causeCode_rejects_part_iff e).2 he⟩]
    rfl

/-! ## In FAULT (R205, R206) -/

theorem decode_eq_sinit_iff (w : CmdWord) : decode w = .cmd .sinit ↔ w = 0x0100000000 := by
  constructor
  · intro h
    exact (encodeOfDecode w .sinit h).2.symm
  · rintro rfl
    exact decodeOfEncode .sinit rfl

theorem cmdWord_toNat (op : Byte) (arg : Word) : (cmdWord op arg).toNat = op.toNat * 2 ^ 32 + arg.toNat := by
  rw [cmdWord, BitVec.toNat_append, ← Nat.shiftLeft_add_eq_or_of_lt arg.isLt, Nat.shiftLeft_eq]

/-- The words of `RDREG` are 0x0300000000 to 0x030000000C (R112). -/
theorem rdreg_word_bounds {w : CmdWord} {r : Byte} (h : decode w = .cmd (.rdreg r)) :
    0x0300000000 ≤ w.toNat ∧ w.toNat ≤ 0x030000000C := by
  obtain ⟨hwf, hword⟩ := encodeOfDecode w _ h
  have hindex : r.toNat < 13 := of_decide_eq_true hwf
  have hopcode : (opcodeOf (.rdreg r)).toNat = 3 := rfl
  rw [← hword, encode, cmdWord_toNat, hopcode, operandOf, BitVec.toNat_setWidth]
  omega

/-- A command that finds FAULT and is not `SINIT` writes no element. -/
theorem block_of_effect_in_fault {s : Block} {i : Instr} {r : Reply} (h : CommandEffect s i r)
    (hfault : s.phase = .fault) (hi : i ≠ .sinit) : r.1 = s := by
  cases h with
  | discarded | viewed | numberChecked => rfl
  | began => exact absurd rfl hi
  | raised _ hphase => exact absurd hfault hphase
  | configured _ hphase | opened hphase | openedNumbered _ hphase | held _ hphase | emitted _ _ hphase
  | partRejected _ hphase | partClosed _ hphase | sessionClosed _ hphase | lowSizeLoaded _ hphase
  | highSizeLoaded _ hphase | partCrcLoaded _ hphase | sessCrcLoaded _ hphase =>
    rw [hfault] at hphase
    cases hphase

/-- R205: in FAULT no word but that of `SINIT` writes an element. -/
theorem wordReply_fst_of_fault {w : CmdWord} {s : Block} (hfault : s.phase = .fault) (hw : w ≠ 0x0100000000) :
    (wordReply w s).1 = s := by
  cases hdecode : decode w with
  | cmd i =>
    rw [wordReply_cmd hdecode]
    refine block_of_effect_in_fault (commandReply_effect i s) hfault ?_
    rintro rfl
    exact hw ((decode_eq_sinit_iff w).1 hdecode)
  | illegal why => rw [wordReply_illegal hdecode, illegal_of_fault hfault, discard_fst]

/-- Settles O16: what the dispatch discards are the words that spell neither `SINIT` nor `RDREG`. -/
theorem faultFreezesAndDiscards : Obligations.FaultFreezesAndDiscards := by
  intro s w hfault
  refine ⟨fun hsinit hrdreg => ?discarded, fun t h hsinit => ?frozen⟩
  case discarded =>
    obtain ⟨hdispatch, -⟩ := dispatchFollowsThePhaseTable s w
    obtain ⟨-, -, hdiscards⟩ := hdispatch hfault
    exact hdiscards (fun h => hsinit ((decode_eq_sinit_iff w).1 h)) fun r h => hrdreg (rdreg_word_bounds h)
  case frozen => exact (toBlock_of_step_presented h).trans (wordReply_fst_of_fault hfault hsinit)

/-! ## Leaving FAULT (R207) -/

/-- R51, R110: the word of `SINIT` brings every element but the sieve option to its reset value. -/
theorem wordReply_sinit_fst (s : Block) :
    (wordReply 0x0100000000 s).1 = { Block.reset with sieveEn := s.sieveEn } := by
  rw [wordReply_cmd ((decode_eq_sinit_iff _).2 rfl), commandReply_sinit, respond_fst, newSession_eq_reset]

/-- Settles O17: one case for hardware reset, one for the word of `SINIT`, and one for every other word. -/
theorem onlySinitAndResetLeaveFault : Obligations.OnlySinitAndResetLeaveFault := by
  intro s t m ms hfault hport h
  cases m with
  | hardReset =>
    rw [step_hardReset hport, Host.Outcome.next.injEq] at h
    have hidle : t.phase ≠ .fault := by simp [← h, Block.reset]
    refine ⟨iff_of_true hidle (.inl rfl), fun _ => ?_, fun hstays => absurd hstays hidle⟩
    rw [← h]
    rfl
  | command w =>
    rw [step_command hport, Host.Outcome.next.injEq] at h
    have hblock : t.toBlock = (wordReply w s.toBlock).1 := by rw [← h, answered_toBlock]
    by_cases hw : w = 0x0100000000
    · subst hw
      rw [wordReply_sinit_fst] at hblock
      have hidle : t.phase ≠ .fault := by simp [hblock, Block.reset]
      exact ⟨iff_of_true hidle (.inr rfl), fun _ => hblock, fun hstays => absurd hstays hidle⟩
    · rw [wordReply_fst_of_fault hfault hw] at hblock
      have hstays : t.phase = .fault := by rw [hblock, hfault]
      have hother : ¬(HostMove.command w = .hardReset ∨ HostMove.command w = .command 0x0100000000) := by
        simpa using hw
      exact ⟨iff_of_false (not_not_intro hstays) hother, fun hleaves => absurd hstays hleaves, fun _ => hblock⟩

/-! ## A counter at its maximum (R218) -/

/-- Settles O41: both overflow tests come before any write. -/
theorem overflowKeepsTheCounter : Obligations.OverflowKeepsTheCounter := by
  refine ⟨fun b s hbody hfull hemits => ?data, fun s hbody hfull => ?pend⟩
  case data => exact exec_data_of_full hbody (BitVec.eq_of_toNat_eq hfull) (Option.isSome_iff_ne_none.1 hemits)
  case pend =>
    exact exec_of_legal_raise (i := .pend) (List.mem_singleton.2 hbody) (runPend_of_full (BitVec.eq_of_toNat_eq hfull))

end Sys2Proof.Machine

/-!
PROOF. The statements of 70_reset_and_hazards.md: the block waits for nothing but the next command (R250), and every
command presented to it is answered (R262).
-/

namespace Sys2Proof.Machine

/-! ## Waiting (R250) -/

theorem step_of_no_move {s : State} (h : s.cmdPort = []) : step s = .next s := by
  simp [step, takeMove_nil h]

/-- Settles O11: with the command port empty there is no move to take. -/
theorem blockWaitsForAMove : Obligations.BlockWaitsForAMove := fun _ => step_of_no_move

/-! ## Progress (R262) -/

/-- Settles O10, by induction on the words: `step_command` takes the first one from any state and answers it once. -/
theorem sessionOfWordsTakesThatManySteps : Obligations.SessionOfWordsTakesThatManySteps := by
  intro words rest s hport
  induction words generalizing s with
  | nil => exact ⟨s, [], rfl, hport, (List.append_nil _).symm, rfl⟩
  | cons w words ih =>
    have hstep : step s = .next (answered (wordReply w) { s with cmdPort := words.map .command ++ rest }) :=
      step_command hport
    obtain ⟨t, rs, hruns, hrest, hresponses, hcount⟩ := ih (answered (wordReply w) { s with cmdPort := _ }) rfl
    refine ⟨t, (wordReply w s.toBlock).2 :: rs, (runs_succ _ hstep).trans hruns, hrest, ?responses,
      congrArg (· + 1) hcount⟩
    case responses => rw [hresponses, answered_rspPort, List.append_assoc, List.singleton_append]

end Sys2Proof.Machine

/-!
PROOF. The command words of 95_test_vectors.md against the decoder (R82, R87, R88): the words of commands by the round
trip of R83, the illegal words by the test of their shape that they fail.
-/

namespace Sys2Proof.Machine

/-- R81, R88: `CFG` with a bit above its flag. -/
theorem decode_cfg_of_operandBits {arg : Word} (h : arg.extractLsb' 1 31 ≠ 0) :
    decode (cmdWord 0x02 arg) = .illegal .operandBits :=
  calc decode (cmdWord 0x02 arg) = shapeF .cfg arg := decode_cmdWord 0x02 arg
    _ = .illegal .operandBits := if_neg h

/-- R45, R88: `RDREG` with a byte that is no register index. -/
theorem decode_rdreg_of_reservedIndex {arg : Word} (hbits : arg.extractLsb' 8 24 = 0)
    (hindex : ¬(arg.extractLsb' 0 8).toNat < Config.regCount) :
    decode (cmdWord 0x03 arg) = .illegal .reservedIndex :=
  calc decode (cmdWord 0x03 arg) = shapeR .rdreg arg := decode_cmdWord 0x03 arg
    _ = .illegal .reservedIndex := (if_pos hbits).trans (if_neg hindex)

/-- R81, R88: `DATA` with a bit above its byte. -/
theorem decode_data_of_operandBits {arg : Word} (h : arg.extractLsb' 8 24 ≠ 0) :
    decode (cmdWord 0x12 arg) = .illegal .operandBits :=
  calc decode (cmdWord 0x12 arg) = shapeB .data arg := decode_cmdWord 0x12 arg
    _ = .illegal .operandBits := if_neg h

/-- Settles O6: each word of a command is what the encoder writes for it, and each illegal word fails one test. -/
theorem writtenWordsDecode : Obligations.WrittenWordsDecode := by
  obtain ⟨hreserved, -⟩ := reservedOpcodesAreIllegal
  refine ⟨decodeOfEncode .sinit rfl, decodeOfEncode (.cfg true) rfl, decodeOfEncode (.rdreg 0x0A) rfl,
    decodeOfEncode .pbegin rfl, decodeOfEncode (.pbeginm 2) rfl, decodeOfEncode (.data 0x72) rfl,
    decodeOfEncode .pend rfl, decodeOfEncode .send rfl, decodeOfEncode (.ldsizel 5) rfl,
    decodeOfEncode (.ldsizeh 1) rfl, decodeOfEncode (.ldpcrc 0xB6C4FA8D) rfl,
    decodeOfEncode (.ldcrc 0xCBF43926) rfl, decodeOfEncode (.chkpart 0xFFFFFFFF) rfl,
    decode_cfg_of_operandBits (arg := 2) (by decide),
    decode_rdreg_of_reservedIndex (arg := 0x0D) (by decide) (by decide),
    decode_data_of_operandBits (arg := 0x100) (by decide), hreserved 0xFF 0 rfl⟩

end Sys2Proof.Machine
